-- ==== Sys2Proof/Word.lean ====
section
/-! DEFINITION. The word types of the block: 32-bit register data (20_memory.md R50), 8-bit decoded bytes
(10_state.md R25), the 16-bit request header (30_encoding.md R70) and the 7-bit PT index (R72). -/

namespace Sys2Proof

/-- One 32-bit register word, the unit of every legal access (R50, R56). -/
abbrev Word := BitVec 32

/-- One decoded byte (R25). -/
abbrev Byte := BitVec 8

/-- The 16-bit header H of a request (R70). -/
abbrev Header := BitVec 16

/-- A 12-bit byte address of the register space (R50). -/
abbrev Addr := BitVec 12

/-- The PT index `ADDR[8:2]`, a 7-bit unsigned number (R72). -/
abbrev PtIndex := BitVec 7

end Sys2Proof
end

