-- ==== Sys2Proof/Config.lean ====
section
/-! DEFINITION. The implementation parameters of 00_scope.md R6. A model takes CNT_W, THRESH_DIVISOR and
THRESH_MODE as arguments (R6); here they are one record, carried in State and written by no step (log 5).
DECODE_LATENCY is OPEN and no rule depends on it (R241): the schedule of State stands for it (log 1). -/

namespace Sys2Proof

/-- THRESH_DIVISOR, legal values 40 and 41 (R6; 90_conflicts.md C1). -/
inductive Divisor
  | d40
  | d41
deriving DecidableEq, Repr

/-- The number a divisor stands for. -/
def Divisor.toNat : Divisor → Nat
  | .d40 => 40
  | .d41 => 41

/-- THRESH_MODE: 0 = INT (truncated threshold), 1 = EXACT (the rational average) (R6, R102). -/
inductive ThreshMode
  | int
  | exact
deriving DecidableEq, Repr

/-- The build parameters of one block (R6). -/
structure Params where
  /-- CNT_W, the width in bits of one PulseTrain counter, legal values 1 to 26. -/
  cntW : Nat
  /-- THRESH_DIVISOR. -/
  divisor : Divisor
  /-- THRESH_MODE. -/
  mode : ThreshMode
deriving DecidableEq, Repr

/-- SUM_W = CNT_W + 6 (R6, R23). -/
def Params.sumW (p : Params) : Nat := p.cntW + 6

/-- The defaults R6 takes: CNT_W = 16, THRESH_DIVISOR = 40, THRESH_MODE = INT. -/
def Params.default : Params := { cntW := 16, divisor := .d40, mode := .int }

/-- The legal values of R6. The divisor and the mode are legal by their types. -/
abbrev Params.Legal (p : Params) : Prop := 1 ≤ p.cntW ∧ p.cntW ≤ 26

/-- The rational number S / D that EXACT mode compares with (R102). Used by statements, never by a step. -/
def Params.exactAverage (p : Params) (S : Nat) : ℚ := (S : ℚ) / (p.divisor.toNat : ℚ)

end Sys2Proof
end

