-- ==== Sys2Proof/Syntax.lean ====
section
/-! DEFINITION. The requests of 30_encoding.md R70 and the one inductive of instructions: one constructor for each of the
12 transaction rows and 4 engine-step rows of spec/opcode_table.json. -/

namespace Sys2Proof

/-- A host request: the 16-bit header H and the 32-bit write-data word WDATA (R70). -/
structure Request where
  header : Header
  wdata : Word
deriving DecidableEq, Repr

/-- The rows of the opcode table (R73, R74, R77). -/
inductive Instr
  /-- RD_CTRL (R162). -/
  | rdCtrl
  /-- WR_CTRL (R163): the command bits START = WDATA[0], SRST = WDATA[1], CLRERR = WDATA[2]. WDATA[31:3] are ignored
  and are no operand (R75). -/
  | wrCtrl (start srst clrerr : Bool)
  /-- RD_STATUS (R175). -/
  | rdStatus
  /-- RD_THRESH (R176). -/
  | rdThresh
  /-- RD_SUM (R177). -/
  | rdSum
  /-- RD_DATA (R178). -/
  | rdData
  /-- RD_CHK (R179). -/
  | rdChk
  /-- RD_READING (R180). -/
  | rdReading
  /-- RD_CONFIG (R181). -/
  | rdConfig
  /-- RD_PT (R167): the index `ADDR[8:2]`. -/
  | rdPt (index : PtIndex)
  /-- WR_PT (R166): the index `ADDR[8:2]` and the whole of WDATA, which the machine truncates to CNT_W bits. -/
  | wrPt (index : PtIndex) (wdata : Word)
  /-- BUS_ERROR (R170): its operand is the whole request. -/
  | busError (request : Request)
  /-- ENG_THRESHOLD (R100, R101): the first stage of the completion. -/
  | engThreshold
  /-- ENG_CLASSIFY (R120, R122): the second stage. -/
  | engClassify
  /-- ENG_VALIDATE (R140 to R143): the third stage. -/
  | engValidate
  /-- ENG_COMPLETE (R172): the engine's one atomic step. -/
  | engComplete
deriving DecidableEq, Repr

/-- The four engine-step rows, which have no encoding (R77). -/
def Instr.isEngineStep : Instr → Bool
  | .engThreshold | .engClassify | .engValidate | .engComplete => true
  | .rdCtrl | .wrCtrl _ _ _ | .rdStatus | .rdThresh | .rdSum | .rdData | .rdChk | .rdReading | .rdConfig
  | .rdPt _ | .wrPt _ _ | .busError _ => false

/-- The row is BUS_ERROR. -/
def Instr.isBusError : Instr → Bool
  | .busError _ => true
  | .rdCtrl | .wrCtrl _ _ _ | .rdStatus | .rdThresh | .rdSum | .rdData | .rdChk | .rdReading | .rdConfig
  | .rdPt _ | .wrPt _ _ | .engThreshold | .engClassify | .engValidate | .engComplete => false

/-- The mnemonic of the constructor's row in spec/opcode_table.json. -/
def Instr.mnemonic : Instr → String
  | .rdCtrl => "RD_CTRL"
  | .wrCtrl _ _ _ => "WR_CTRL"
  | .rdStatus => "RD_STATUS"
  | .rdThresh => "RD_THRESH"
  | .rdSum => "RD_SUM"
  | .rdData => "RD_DATA"
  | .rdChk => "RD_CHK"
  | .rdReading => "RD_READING"
  | .rdConfig => "RD_CONFIG"
  | .rdPt _ => "RD_PT"
  | .wrPt _ _ => "WR_PT"
  | .busError _ => "BUS_ERROR"
  | .engThreshold => "ENG_THRESHOLD"
  | .engClassify => "ENG_CLASSIFY"
  | .engValidate => "ENG_VALIDATE"
  | .engComplete => "ENG_COMPLETE"

end Sys2Proof
end

