-- ==== Sys2Proof/Machine/State.lean ====
section
/-! DEFINITION. The state of the block as plain data: every register of 10_state.md (R20 to R33), the turns still to come
and the responses given. The value after reset is that of 70_reset_and_hazards.md R230. -/

namespace Sys2Proof.Machine

open Sys2Proof

/-- The pulse-train buffer PT[0..81] (R20). Each entry is CNT_W bits wide; it is held in a 32-bit word whose bits above
CNT_W are 0 (an invariant of the step, `State.Widths`; log 6). -/
abbrev PulseTrain := Vector Word 82

/-- The decoded bytes DATA[0..4] (R25). -/
abbrev DataBytes := Vector Byte 5

/-- The STATUS fields (R29). The engine is IDLE when `busy` is false and BUSY when it is true (R31). The reserved bits read
0 and are not stored. -/
structure Status where
  busy : Bool
  done : Bool
  valid : Bool
  mismatch : Bool
  werr : Bool
  aerr : Bool
deriving DecidableEq, Repr

/-- RESP: 0 = OKAY, 1 = ERR (R71). -/
inductive Resp
  | okay
  | err
deriving DecidableEq, Repr

/-- The response every request gets exactly one of (R71). -/
structure Response where
  resp : Resp
  rdata : Word
deriving DecidableEq, Repr

/-- A turn of one agent: the host performs a request (R160), the engine takes the step it has, if any (R171, R172), or the
reset input is asserted (R230). -/
inductive Turn
  | request (r : Request)
  | engine
  | reset
deriving DecidableEq, Repr

/-- The state of the block. -/
structure State where
  /-- The build parameters, readable as CONFIG (R6, R33). No step writes them. -/
  params : Params
  /-- PT[0..81] (R20). -/
  pt : PulseTrain
  /-- SUM, CNT_W + 6 bits (R23). -/
  sum : Word
  /-- THRESH, CNT_W bits (R24). -/
  thresh : Word
  /-- DATA[0..4] (R25). -/
  data : DataBytes
  /-- CSUM (R26). -/
  csum : Byte
  /-- HUM (R27). -/
  hum : Byte
  /-- TEMP (R27). -/
  temp : Byte
  /-- STATUS (R29). -/
  status : Status
  /-- The model's own: the turns still to come, in the order they occur. It holds what R173 leaves open (log 1). -/
  schedule : List Turn
  /-- The model's own: the responses given, the newest first (log 4). -/
  responses : List Response
deriving DecidableEq, Repr

/-- Why the block stops: never. Every request has one defined outcome and every error is a response or a STATUS bit
(R201, R206), so there is no constructor (log 20). -/
inductive Fault
deriving DecidableEq, Repr

/-- Why the model gives no meaning. -/
inductive Refusal
  /-- An arm of `exec` whose instruction has no meaning yet, by its mnemonic. Safe. No arm raises it: all have one. -/
  | notModelled (mnemonic : String)
deriving DecidableEq, Repr

/-- STATUS after reset: every field 0 (R29, R230). -/
def Status.reset : Status :=
  { busy := false, done := false, valid := false, mismatch := false, werr := false, aerr := false }

/-- The state of a block with parameters `p` right after reset: every register 0 and the engine IDLE (R230, R232), no turn
pending and no response given. -/
def State.resetOf (p : Params) : State :=
  { params := p
    pt := Vector.replicate 82 0
    sum := 0
    thresh := 0
    data := Vector.replicate 5 0
    csum := 0
    hum := 0
    temp := 0
    status := Status.reset
    schedule := []
    responses := [] }

/-- The default build right after reset (R6, R230). -/
def State.reset : State := State.resetOf Params.default

end Sys2Proof.Machine
end

