-- ==== Sys2Proof/Machine/Flags.lean ====
section
/-! DEFINITION. Every STATUS update the block makes, as 10_state.md R29's table lists them (R32: no other). -/

namespace Sys2Proof.Machine

/-- An accepted START sets BUSY and clears DONE, VALID and MISMATCH (R164). -/
def Status.started (st : Status) : Status :=
  { st with busy := true, done := false, valid := false, mismatch := false }

/-- A write or START while BUSY sets WERR (R164, R166, R203). -/
def Status.writeRefused (st : Status) : Status := { st with werr := true }

/-- An access error sets AERR (R170, R202). -/
def Status.accessRefused (st : Status) : Status := { st with aerr := true }

/-- CLRERR clears WERR and AERR (R165). -/
def Status.errorsCleared (st : Status) : Status := { st with werr := false, aerr := false }

/-- The validator's outcome: VALID when the checksums are equal, MISMATCH when not (R142, R143). -/
def Status.validated (ok : Bool) (st : Status) : Status := { st with valid := ok, mismatch := !ok }

/-- The end of a completion: BUSY 0 and DONE 1 (R172). -/
def Status.finished (st : Status) : Status := { st with busy := false, done := true }

end Sys2Proof.Machine
end

