-- ==== Sys2Proof/WellFormed.lean ====
section
/-! DEFINITION. Which headers are legal, in the words of 30_encoding.md R73 and R74 (field by field, not by the decoder's
match and mask), and which terms of Instr stand for a row of the opcode table. -/

namespace Sys2Proof

/-- WE, header bit 15: 1 = write (R70). -/
def Header.we (h : Header) : Bool := h.getLsbD 15

/-- RSV, header bit 14: reserved, must be 0 (R70). -/
def Header.rsv (h : Header) : Bool := h.getLsbD 14

/-- SIZE, header bits 13:12 (R70). -/
def Header.size (h : Header) : BitVec 2 := h.extractLsb' 12 2

/-- ADDR, header bits 11:0 (R70). -/
def Header.addr (h : Header) : Addr := h.extractLsb' 0 12

/-- `addr[1:0] = 0b00` (R56). -/
def Addr.aligned (a : Addr) : Bool := a.toNat % 4 == 0

/-- The PT window's existing entries, 0x400 to 0x544 (R51). -/
def Addr.inPulseTrain (a : Addr) : Bool := 0x400 ≤ a.toNat && a.toNat ≤ 0x544

/-- The mapped word-aligned addresses of R51: the eight registers at 0x000 to 0x01C and the 82 PT entries. -/
def Addr.mapped (a : Addr) : Bool := a.aligned && (a.toNat ≤ 0x01C || a.inPulseTrain)

/-- The writable registers: CTRL and the PT entries (R73). -/
def Addr.writable (a : Addr) : Bool := a.toNat == 0 || a.inPulseTrain

/-- A request is legal when RSV = 0, SIZE = 0b10, ADDR[1:0] = 0b00, ADDR is mapped and, for a write, writable (R73). -/
def Header.legal (h : Header) : Bool :=
  !h.rsv && h.size == 0b10 && h.addr.mapped && (!h.we || h.addr.writable)

/-- A PT index exists when `i ≤ 81` (R52). -/
def PtIndex.legal (i : PtIndex) : Bool := i.toNat ≤ 81

/-- The terms that stand for a row of the table: PT indices at most 81 (R166, R167), and BUS_ERROR only for an illegal
header (R74). -/
def Instr.wellFormed : Instr → Bool
  | .rdPt i => PtIndex.legal i
  | .wrPt i _ => PtIndex.legal i
  | .busError r => !Header.legal r.header
  | .rdCtrl | .wrCtrl _ _ _ | .rdStatus | .rdThresh | .rdSum | .rdData | .rdChk | .rdReading | .rdConfig
  | .engThreshold | .engClassify | .engValidate | .engComplete => true

end Sys2Proof
end

