-- ==== Sys2Proof/Decode.lean ====
section
/-! DEFINITION. The decoder of 30_encoding.md R73 and R74, total on requests: a header that no row matches is BUS_ERROR,
so no request is refused. What is refused by name is a bit string longer than a request. Then the encoder, and the
assembler syntax and pseudo-instructions of R78 and R79. -/

namespace Sys2Proof

/-- One row of R73's table: the match and the mask over the 16 header bits. -/
structure HeaderRow where
  pattern : Header
  mask : Header
deriving DecidableEq, Repr

/-- The header bits under the mask are the row's. -/
def HeaderRow.hits (row : HeaderRow) (h : Header) : Bool := (h &&& row.mask) == row.pattern

def rowRdCtrl : HeaderRow := ⟨0x2000, 0xFFFF⟩
def rowWrCtrl : HeaderRow := ⟨0xA000, 0xFFFF⟩
def rowRdStatus : HeaderRow := ⟨0x2004, 0xFFFF⟩
def rowRdThresh : HeaderRow := ⟨0x2008, 0xFFFF⟩
def rowRdSum : HeaderRow := ⟨0x200C, 0xFFFF⟩
def rowRdData : HeaderRow := ⟨0x2010, 0xFFFF⟩
def rowRdChk : HeaderRow := ⟨0x2014, 0xFFFF⟩
def rowRdReading : HeaderRow := ⟨0x2018, 0xFFFF⟩
def rowRdConfig : HeaderRow := ⟨0x201C, 0xFFFF⟩
def rowRdPt : HeaderRow := ⟨0x2400, 0xFE03⟩
def rowWrPt : HeaderRow := ⟨0xA400, 0xFE03⟩

/-- The eleven rows of R73, in its order. -/
def headerRows : List HeaderRow :=
  [rowRdCtrl, rowWrCtrl, rowRdStatus, rowRdThresh, rowRdSum, rowRdData, rowRdChk, rowRdReading, rowRdConfig,
    rowRdPt, rowWrPt]

/-- The PT index `H[8:2]` (R72, R73). -/
def ptIndexOf (h : Header) : PtIndex := h.extractLsb' 2 7

/-- The extra condition of the two PT rows: `H[8:2] ≤ 81` (R73). -/
def ptIndexLegal (h : Header) : Bool := (ptIndexOf h).toNat ≤ 81

/-- The decoder (R73, R74, R161). Only the header selects the row; WDATA is an operand of the two writes (R72). -/
def decode (r : Request) : Instr :=
  if rowRdCtrl.hits r.header then .rdCtrl
  else if rowWrCtrl.hits r.header then .wrCtrl (r.wdata.getLsbD 0) (r.wdata.getLsbD 1) (r.wdata.getLsbD 2)
  else if rowRdStatus.hits r.header then .rdStatus
  else if rowRdThresh.hits r.header then .rdThresh
  else if rowRdSum.hits r.header then .rdSum
  else if rowRdData.hits r.header then .rdData
  else if rowRdChk.hits r.header then .rdChk
  else if rowRdReading.hits r.header then .rdReading
  else if rowRdConfig.hits r.header then .rdConfig
  else if rowRdPt.hits r.header && ptIndexLegal r.header then .rdPt (ptIndexOf r.header)
  else if rowWrPt.hits r.header && ptIndexLegal r.header then .wrPt (ptIndexOf r.header) r.wdata
  else .busError r

/-- The one reason a bit string is no request: it is longer than the 48 bits of R70. -/
inductive Reject
  | longerThanRequest
deriving DecidableEq, Repr

/-- The 48-bit request as a number: H in bits 15:0, the first word, and WDATA in bits 47:16 (R70; log 13). -/
def Request.ofNat (w : Nat) : Request := { header := BitVec.ofNat 16 w, wdata := BitVec.ofNat 32 (w / 2 ^ 16) }

/-- The number of a request, as `Request.ofNat` reads it. -/
def Request.toNat (r : Request) : Nat := r.header.toNat + 2 ^ 16 * r.wdata.toNat

/-- Decoding a bit string, rejecting by name one that is longer than a request. -/
def decodeBits (w : Nat) : Except Reject Instr :=
  if w < 2 ^ 48 then .ok (decode (Request.ofNat w)) else .error .longerThanRequest

/-- The instruction the decoder reads from a table row's word: bits above `nbits` are 0. -/
def decodeTableWord (nbits w : Nat) : Option Instr :=
  match decodeBits (w % 2 ^ nbits) with
  | .ok i => some i
  | .error _ => none

/-! ## The encoder -/

/-- A PT row's header: its match with the index in bits 8:2 (R73). -/
def ptHeader (row : HeaderRow) (i : PtIndex) : Header := row.pattern ||| (i.setWidth 16 <<< 2)

/-- WDATA of a CTRL write: the command bits, the reserved bits 0 (R72). -/
def ctrlWord (start srst clrerr : Bool) : Word :=
  BitVec.ofNat 32 (start.toNat + 2 * srst.toNat + 4 * clrerr.toNat)

/-- The request that encodes an instruction; a read's WDATA is 0 (R70). The engine steps have no encoding (R77). -/
def encode : Instr → Option Request
  | .rdCtrl => some ⟨rowRdCtrl.pattern, 0⟩
  | .wrCtrl start srst clrerr => some ⟨rowWrCtrl.pattern, ctrlWord start srst clrerr⟩
  | .rdStatus => some ⟨rowRdStatus.pattern, 0⟩
  | .rdThresh => some ⟨rowRdThresh.pattern, 0⟩
  | .rdSum => some ⟨rowRdSum.pattern, 0⟩
  | .rdData => some ⟨rowRdData.pattern, 0⟩
  | .rdChk => some ⟨rowRdChk.pattern, 0⟩
  | .rdReading => some ⟨rowRdReading.pattern, 0⟩
  | .rdConfig => some ⟨rowRdConfig.pattern, 0⟩
  | .rdPt i => some ⟨ptHeader rowRdPt i, 0⟩
  | .wrPt i w => some ⟨ptHeader rowWrPt i, w⟩
  | .busError r => some r
  | .engThreshold => none
  | .engClassify => none
  | .engValidate => none
  | .engComplete => none

/-! ## Assembler syntax and pseudo-instructions (R78, R79) -/

/-- `rd ADDR`: H = 0x2000 | ADDR, WDATA = 0 (R78). -/
def Request.rd (a : Addr) : Request := ⟨0x2000 ||| a.setWidth 16, 0⟩

/-- `wr ADDR, DATA`: H = 0xA000 | ADDR, WDATA = DATA (R78). -/
def Request.wr (a : Addr) (data : Word) : Request := ⟨0xA000 ||| a.setWidth 16, data⟩

/-- `xfer WE, SIZE, ADDR, DATA`: H = (WE << 15) | (SIZE << 12) | ADDR, WDATA = DATA (R78). -/
def Request.xfer (we : BitVec 1) (size : BitVec 2) (a : Addr) (data : Word) : Request :=
  ⟨(we.setWidth 16 <<< 15) ||| (size.setWidth 16 <<< 12) ||| a.setWidth 16, data⟩

/-! The register names of R78. -/

def addrCtrl : Addr := 0x000
def addrStatus : Addr := 0x004
def addrThresh : Addr := 0x008
def addrSum : Addr := 0x00C
def addrData : Addr := 0x010
def addrChk : Addr := 0x014
def addrReading : Addr := 0x018
def addrConfig : Addr := 0x01C

/-- `PT(i)` = 0x400 + 4·i (R78). -/
def addrPt (i : Nat) : Addr := BitVec.ofNat 12 (0x400 + 4 * i)

/-- `start` (R79). -/
def Request.start : Request := .wr addrCtrl 0x1

/-- `srst` (R79). -/
def Request.srst : Request := .wr addrCtrl 0x2

/-- `clrerr` (R79). -/
def Request.clrerr : Request := .wr addrCtrl 0x4

/-- `wrpt i, v` (R79). -/
def Request.wrpt (i : Nat) (v : Word) : Request := .wr (addrPt i) v

/-- `rdpt i` (R79). -/
def Request.rdpt (i : Nat) : Request := .rd (addrPt i)

/-- One iteration of `poll`: `rd STATUS` (R79). The loop is the host's (log 22). -/
def Request.poll : Request := .rd addrStatus

end Sys2Proof
end

