-- ==== Sys2Proof/Machine/Operands.lean ====
section
/-! DEFINITION. Operand assembly (30_encoding.md R72) and the layouts of the registers a host reads (20_memory.md R51).
A field of the spec's `{…, b, a}` (R8) that begins at bit k is the field's number times 2 ^ k. -/

namespace Sys2Proof.Machine

open Sys2Proof

/-- The PT write value `WDATA[CNT_W−1:0]`, stored unsigned; the bits above are ignored (R72, R166). -/
def ptValue (p : Params) (wdata : Word) : Word := (wdata.setWidth p.cntW).setWidth 32

/-- The counter PT[i] as a number (R20), for the indices the engine reads. -/
def counter (pt : PulseTrain) (i : Nat) : Nat := (pt[i]?.getD 0).toNat

/-- STATUS as it reads: `zext_32({AERR, WERR, 0b0000, MISMATCH, VALID, DONE, BUSY})`, BUSY in bit 0, DONE 1, VALID 2,
MISMATCH 3, WERR 8, AERR 9 (R175). -/
def statusWord (st : Status) : Word :=
  BitVec.ofNat 32
    (st.busy.toNat + 2 ^ 1 * st.done.toNat + 2 ^ 2 * st.valid.toNat + 2 ^ 3 * st.mismatch.toNat +
      2 ^ 8 * st.werr.toNat + 2 ^ 9 * st.aerr.toNat)

/-- DATA as it reads: `{DATA[3], DATA[2], DATA[1], DATA[0]}` (R51, R178). -/
def dataWord (d : DataBytes) : Word :=
  BitVec.ofNat 32 (d[0].toNat + 2 ^ 8 * d[1].toNat + 2 ^ 16 * d[2].toNat + 2 ^ 24 * d[3].toNat)

/-- CHK as it reads: `{16'b0, CSUM, DATA[4]}` (R51, R179). -/
def chkWord (csum : Byte) (d : DataBytes) : Word := BitVec.ofNat 32 (d[4].toNat + 2 ^ 8 * csum.toNat)

/-- READING as it reads: `{16'b0, TEMP, HUM}` (R51, R180). -/
def readingWord (temp hum : Byte) : Word := BitVec.ofNat 32 (hum.toNat + 2 ^ 8 * temp.toNat)

/-- The MODE bit of CONFIG: 0 = INT, 1 = EXACT (R33). -/
def modeBit : ThreshMode → Nat
  | .int => 0
  | .exact => 1

/-- CONFIG as it reads: `{15'b0, THRESH_MODE, THRESH_DIVISOR[7:0], CNT_W[7:0]}` (R33, R181). -/
def configWord (p : Params) : Word :=
  BitVec.ofNat 32 (p.cntW % 2 ^ 8 + 2 ^ 8 * (p.divisor.toNat % 2 ^ 8) + 2 ^ 16 * modeBit p.mode)

end Sys2Proof.Machine
end

