-- ==== Sys2Proof/Machine/Ops.lean ====
section
/-! DEFINITION. The named operations the meanings share: the response, the access error, PT access, the CTRL commands and
reset. -/

namespace Sys2Proof.Machine

open Sys2Proof

/-- Give the one response of a transaction (R71). -/
def State.respond (resp : Resp) (rdata : Word) (s : State) : State :=
  { s with responses := ⟨resp, rdata⟩ :: s.responses }

/-- Change STATUS alone. -/
def State.mapStatus (f : Status → Status) (s : State) : State := { s with status := f s.status }

/-- `raise AccessError` (R9, R170, R202): respond ERR with rdata = 0 and change no state except setting STATUS.AERR. This
is what the block does in place of taking an exception: it saves nothing and transfers no control (R206). -/
def State.accessError (s : State) : State := (s.mapStatus Status.accessRefused).respond .err 0

/-- Write one PT entry (R166); an index above 81 names none. -/
def State.setPt (i : Nat) (w : Word) (s : State) : State := { s with pt := s.pt.setIfInBounds i w }

/-- The state change of a reset, hard or soft (R230, R231): every register of the block to 0, the engine IDLE, a pending
completion cancelled. CONFIG is a constant and stays. What is still to come and the responses already given are not the
block's registers (log 11). -/
def State.resetRegisters (s : State) : State :=
  { State.resetOf s.params with schedule := s.schedule, responses := s.responses }

/-- START (R164): while IDLE the engine now has one pending completion; while BUSY the START is refused. -/
def State.startDecode (s : State) : State :=
  if s.status.busy then s.mapStatus Status.writeRefused else s.mapStatus Status.started

/-- CLRERR (R165). -/
def State.clearErrors (s : State) : State := s.mapStatus Status.errorsCleared

/-- The command bits of one CTRL write: SRST takes precedence, else CLRERR and then START (R163, R204). -/
def State.ctrlCommands (start srst clrerr : Bool) (s : State) : State :=
  if srst then s.resetRegisters
  else
    let cleared := if clrerr then s.clearErrors else s
    if start then cleared.startDecode else cleared

/-- A PT write of a counter that exists: stored while IDLE, dropped with WERR while BUSY (R166, R203). -/
def State.storeCounter (i : Nat) (wdata : Word) (s : State) : State :=
  if s.status.busy then s.mapStatus Status.writeRefused else s.setPt i (ptValue s.params wdata)

end Sys2Proof.Machine
end

