-- ==== Sys2Proof/Machine/BusError.lean ====
section
/-! DEFINITION. The illegal request (43_host_interface.md R170). -/

namespace Sys2Proof.Machine

/-- BUS_ERROR (R170): the access error of R202, whatever the request. -/
def execBusError (s : State) : Host.Outcome State Fault Refusal := .next s.accessError

end Sys2Proof.Machine
end

