-- ==== Sys2Proof/Machine/Control.lean ====
section
/-! DEFINITION. The CTRL transactions (43_host_interface.md R162, R163). -/

namespace Sys2Proof.Machine

open Sys2Proof

/-- RD_CTRL (R162): CTRL stores nothing and reads 0. -/
def execRdCtrl (s : State) : Host.Outcome State Fault Refusal := .next (s.respond .okay 0)

/-- WR_CTRL (R163): the commands, answered OKAY with rdata = 0. -/
def execWrCtrl (start srst clrerr : Bool) (s : State) : Host.Outcome State Fault Refusal :=
  .next ((s.ctrlCommands start srst clrerr).respond .okay 0)

end Sys2Proof.Machine
end

