-- ==== Sys2Proof/Machine/Engine.lean ====
section
/-! DEFINITION. The engine: the threshold decoder (40_threshold_decoder.md), the bit classifier (41_bit_classifier.md), the
checksum validator (42_checksum_validator.md) and the completion step that runs the three at one instant
(43_host_interface.md R172). -/

namespace Sys2Proof.Machine

open Sys2Proof

/-! ## Threshold decoder -/

/-- The sum of the data-low counters PT[2], PT[4], …, PT[2n] (R100), exact. -/
def lowSumUpTo (pt : PulseTrain) : Nat → Nat
  | 0 => 0
  | n + 1 => lowSumUpTo pt n + counter pt (2 * (n + 1))

/-- THRESHOLD-SUM: the sum S of the 40 data-low counters (R100). -/
def lowSum (pt : PulseTrain) : Nat := lowSumUpTo pt 40

/-- THRESHOLD-QUOTIENT: `S div D`, the floor, in both modes (R101). -/
def quotient (p : Params) (S : Nat) : Nat := S / p.divisor.toNat

/-- THRESHOLD-PREDICATE: what a high counter `h` is compared against (R102), exact on unbounded numbers. -/
def meets (p : Params) (S h : Nat) : Bool :=
  match p.mode with
  | .int => decide (h ≥ S / p.divisor.toNat)
  | .exact => decide (h * p.divisor.toNat ≥ S)

/-- ENG_THRESHOLD's part of the completion: SUM and THRESH (R100, R101). -/
def State.thresholdStage (s : State) : State :=
  { s with
    sum := BitVec.ofNat 32 (lowSum s.pt)
    thresh := BitVec.ofNat 32 (quotient s.params (lowSum s.pt)) }

/-! ## Bit classifier -/

/-- CLASSIFY-BIT: data bit `n` is the classification of PT[2n+3] (R120). -/
def classifyBit (p : Params) (S : Nat) (pt : PulseTrain) (n : Nat) : Bool := meets p S (counter pt (2 * n + 3))

/-- `((B << 1) | bit)[7:0]` (R122). -/
def shiftIn (b : Byte) (v : Bool) : Byte := (b <<< 1) ||| BitVec.ofNat 8 v.toNat

/-- PACK-BYTES' loop for n = 0 .. count − 1, in increasing order, over the byte registers (R122). -/
def packUpTo (bits : Nat → Bool) (init : DataBytes) : Nat → DataBytes
  | 0 => init
  | n + 1 =>
    let b := packUpTo bits init n
    b.setIfInBounds (n / 8) (shiftIn (b[n / 8]?.getD 0) (bits n))

/-- PACK-BYTES: the bytes cleared, then 40 shifts (R122). Irreducible only so that the elaborator does not run the loop when
it compares two states; the kernel runs it. -/
@[irreducible] def packBytes (bits : Nat → Bool) : DataBytes := packUpTo bits (Vector.replicate 5 0) 40

/-- ENG_CLASSIFY's part of the completion: DATA[0..4], under the threshold of all 40 data-low counters (R102, R104, R122). -/
def State.classifyStage (s : State) : State :=
  { s with data := packBytes (classifyBit s.params (lowSum s.pt) s.pt) }

/-! ## Checksum validator -/

/-- CHECKSUM-COMPUTE: `(B[0] + B[1] + B[2] + B[3]) mod 256`, the exact sum and then its low 8 bits (R140). -/
def checksum (d : DataBytes) : Byte := BitVec.ofNat 8 (d[0].toNat + d[1].toNat + d[2].toNat + d[3].toNat)

/-- CHECKSUM-COMPARE: the computed checksum against the received one, byte 4 (R141, R124). -/
def checksumOk (d : DataBytes) : Bool := checksum d == d[4]

/-- ENG_VALIDATE's part of the completion: CSUM, VALID or MISMATCH, and the reading, 0 after a mismatch (R140 to R143). -/
def State.validateStage (s : State) : State :=
  { s with
    csum := checksum s.data
    hum := if checksumOk s.data then s.data[0] else 0
    temp := if checksumOk s.data then s.data[2] else 0
    status := s.status.validated (checksumOk s.data) }

/-! ## The completion -/

/-- ENGINE-COMPLETE (R172): the three stages and the end of the decode, as one change of state. PT is as it stood when START
was accepted, since no transaction changes it while BUSY (R171; log 19). -/
def State.completeDecode (s : State) : State :=
  s.thresholdStage.classifyStage.validateStage.mapStatus Status.finished

/-- The engine acts only while BUSY; while IDLE it has no step and nothing changes (R171, R214; log 3). -/
def State.whileBusy (f : State → State) (s : State) : State := if s.status.busy then f s else s

/-- ENG_THRESHOLD (R100, R101): one stage's share of the completion; no step takes it alone (R77; log 8). -/
def execEngThreshold (s : State) : Host.Outcome State Fault Refusal := .next (s.whileBusy State.thresholdStage)

/-- ENG_CLASSIFY (R120, R122): one stage's share of the completion (log 8). -/
def execEngClassify (s : State) : Host.Outcome State Fault Refusal := .next (s.whileBusy State.classifyStage)

/-- ENG_VALIDATE (R140 to R143): one stage's share of the completion (log 8). -/
def execEngValidate (s : State) : Host.Outcome State Fault Refusal := .next (s.whileBusy State.validateStage)

/-- ENG_COMPLETE (R172). -/
def execEngComplete (s : State) : Host.Outcome State Fault Refusal := .next (s.whileBusy State.completeDecode)

end Sys2Proof.Machine
end

