-- ==== Sys2Proof/Machine/PulseAccess.lean ====
section
/-! DEFINITION. The pulse-train transactions (43_host_interface.md R166, R167). An index 82 to 127 is a BUS_ERROR. -/

namespace Sys2Proof.Machine

open Sys2Proof

/-- RD_PT (R167): legal while BUSY too. -/
def execRdPt (index : PtIndex) (s : State) : Host.Outcome State Fault Refusal :=
  if index.toNat ≤ 81 then .next (s.respond .okay (s.pt[index.toNat]?.getD 0)) else .next s.accessError

/-- WR_PT (R166): answered OKAY whether stored or dropped. -/
def execWrPt (index : PtIndex) (wdata : Word) (s : State) : Host.Outcome State Fault Refusal :=
  if index.toNat ≤ 81 then .next ((s.storeCounter index.toNat wdata).respond .okay 0) else .next s.accessError

end Sys2Proof.Machine
end

