-- ==== Sys2Proof/Machine/Results.lean ====
section
/-! DEFINITION. The result, status and configuration reads (43_host_interface.md R168, R175 to R181): OKAY with the
register's current value, changing no state of the block, also while BUSY. -/

namespace Sys2Proof.Machine

open Sys2Proof

/-- RD_STATUS (R175). A read does not clear the sticky bits. -/
def execRdStatus (s : State) : Host.Outcome State Fault Refusal := .next (s.respond .okay (statusWord s.status))

/-- RD_THRESH (R176). -/
def execRdThresh (s : State) : Host.Outcome State Fault Refusal := .next (s.respond .okay s.thresh)

/-- RD_SUM (R177). -/
def execRdSum (s : State) : Host.Outcome State Fault Refusal := .next (s.respond .okay s.sum)

/-- RD_DATA (R178). -/
def execRdData (s : State) : Host.Outcome State Fault Refusal := .next (s.respond .okay (dataWord s.data))

/-- RD_CHK (R179). -/
def execRdChk (s : State) : Host.Outcome State Fault Refusal := .next (s.respond .okay (chkWord s.csum s.data))

/-- RD_READING (R180). -/
def execRdReading (s : State) : Host.Outcome State Fault Refusal := .next (s.respond .okay (readingWord s.temp s.hum))

/-- RD_CONFIG (R181). -/
def execRdConfig (s : State) : Host.Outcome State Fault Refusal := .next (s.respond .okay (configWord s.params))

end Sys2Proof.Machine
end

