-- ==== Sys2Proof/Machine/Dispatch.lean ====
section
/-! DEFINITION. One arm per constructor of Instr, each one direct call of its meaning. -/

namespace Sys2Proof.Machine

open Sys2Proof

def exec (i : Instr) (s : State) : Host.Outcome State Fault Refusal :=
  match i with
  | .rdCtrl => Sys2Proof.Machine.execRdCtrl s
  | .wrCtrl start srst clrerr => Sys2Proof.Machine.execWrCtrl start srst clrerr s
  | .rdStatus => Sys2Proof.Machine.execRdStatus s
  | .rdThresh => Sys2Proof.Machine.execRdThresh s
  | .rdSum => Sys2Proof.Machine.execRdSum s
  | .rdData => Sys2Proof.Machine.execRdData s
  | .rdChk => Sys2Proof.Machine.execRdChk s
  | .rdReading => Sys2Proof.Machine.execRdReading s
  | .rdConfig => Sys2Proof.Machine.execRdConfig s
  | .rdPt index => Sys2Proof.Machine.execRdPt index s
  | .wrPt index wdata => Sys2Proof.Machine.execWrPt index wdata s
  | .busError _ => Sys2Proof.Machine.execBusError s
  | .engThreshold => Sys2Proof.Machine.execEngThreshold s
  | .engClassify => Sys2Proof.Machine.execEngClassify s
  | .engValidate => Sys2Proof.Machine.execEngValidate s
  | .engComplete => Sys2Proof.Machine.execEngComplete s

end Sys2Proof.Machine
end

