-- ==== Sys2Proof/Machine/Step.lean ====
section
/-! DEFINITION. One step of the block: the next turn of the schedule (20_memory.md R60; 43_host_interface.md R173, R174). -/

namespace Sys2Proof.Machine

open Sys2Proof

/-- The next turn is performed and taken off the schedule. A request is decoded and performed (R160, R161); an engine turn is
the completion where one is pending (R171, R172); a reset assertion is one atomic step (R230). With no turn left the pending
completion, if any, still comes (R173; log 1), and an IDLE block holds its state (R214; log 2). -/
def step (s : State) : Host.Outcome State Fault Refusal :=
  match s.schedule with
  | [] => exec .engComplete s
  | .request r :: rest => exec (decode r) { s with schedule := rest }
  | .engine :: rest => exec .engComplete { s with schedule := rest }
  | .reset :: rest => .next (State.resetRegisters { s with schedule := rest })

/-- The table row's word as the host's next request: the one thing that makes the next step run it (log 12, log 13). -/
def State.withFetchWord (s : State) (nbits w : Nat) : State :=
  { s with schedule := .request (Request.ofNat (w % 2 ^ nbits)) :: s.schedule }

end Sys2Proof.Machine
end

