-- ==== Sys2Proof/Machine/HostView.lean ====
section
/-! DEFINITION. What the host does with the block: the bus primitives of 00_scope.md R9, the decode procedure of
43_host_interface.md R182 as a schedule, and the outcome the host takes from it (42_checksum_validator.md R144, R145;
60_exceptions.md R200, R201). No step calls these. -/

namespace Sys2Proof.Machine

open Sys2Proof

/-- `BusRead(addr)` (R9): one 32-bit read transaction. Its response is the head of the next state's `responses`. -/
def busRead (a : Addr) (s : State) : Host.Outcome State Fault Refusal := exec (decode (.rd a)) s

/-- `BusWrite(addr, data)` (R9): one 32-bit write transaction. -/
def busWrite (a : Addr) (data : Word) (s : State) : Host.Outcome State Fault Refusal := exec (decode (.wr a data)) s

/-- `k` steps of the block, each on the state the one before left (R60); it stops where a step does. -/
def runSteps : Nat → State → Host.Outcome State Fault Refusal
  | 0, s => .next s
  | k + 1, s =>
    match step s with
    | .next t => runSteps k t
    | .fault f => .fault f
    | .refused r => .refused r

/-- The source's two outcomes of one decode, as the host reports them (R142, R143, R182): the reading as the unsigned byte
values (R145), or `ChecksumMismatch`. The conversion to floating point is the host's own (R144; log 18). -/
inductive DecodeOutcome
  | reading (humidity temperature : Nat)
  | checksumMismatch
deriving DecidableEq, Repr

/-- What the host reports by R182 (5), when a read of STATUS has returned DONE = 1. -/
def State.outcome (s : State) : Option DecodeOutcome :=
  if s.status.done then
    if s.status.valid then some (.reading s.hum.toNat s.temp.toNat)
    else if s.status.mismatch then some .checksumMismatch
    else none
  else none

/-- R182 (2): one WR_PT request for each of the counters number `first`, `first + 1`, … of a capture. -/
def writeCounters (first : Nat) : List Word → List Turn
  | [] => []
  | c :: rest => .request (.wrpt first c) :: writeCounters (first + 1) rest

/-- R182 (2) to (5) for one capture: all 82 counters written, `start`, the completion, `poll`'s last read of STATUS, and the
read of READING, which this host makes after a mismatch too and then does not use (log 22). -/
def decodeProcedure (capture : PulseTrain) : List Turn :=
  writeCounters 0 capture.toList ++
    [.request .start, .engine, .request .poll, .request (.rd addrReading)]

end Sys2Proof.Machine
end

