-- ==== Sys2Proof/Safety.lean ====
section
/-! DEFINITION. What holds of the block between any two steps, in the terms the statements use: the register widths
(10_state.md R20, R23, R24), the STATUS invariants (R30) and what the result registers hold (R24, R26, R27). -/

namespace Sys2Proof.Machine

open Sys2Proof

/-- The sum of the 40 data-low counters PT[2k], k = 1..40 (R100), as the mathematical sum. -/
abbrev State.dataLowSum (s : State) : Nat := ∑ k ∈ Finset.Icc 1 40, counter s.pt (2 * k)

/-- The 40 data-high counters of PT encode the five bytes `b` under the threshold of PT's data-low counters: bit `7 − m` of
byte `j` is the classification of PT[16j + 2m + 3], most significant bit first (R123). -/
abbrev State.PulsesEncode (s : State) (b : DataBytes) : Prop :=
  ∀ (j : Fin 5) (m : Fin 8),
    b[j].getLsbD (7 - m.val) = meets s.params s.dataLowSum (counter s.pt (16 * j.val + 2 * m.val + 3))

/-- Every counter register holds a value of its own width (R20, R23, R24). -/
abbrev State.Widths (s : State) : Prop :=
  (∀ i : Fin 82, s.pt[i].toNat < 2 ^ s.params.cntW) ∧ s.sum.toNat < 2 ^ s.params.sumW ∧
    s.thresh.toNat < 2 ^ s.params.cntW

/-- R30 (a): BUSY = 1 implies DONE = 0, VALID = 0, MISMATCH = 0. -/
abbrev Status.BusyClean (st : Status) : Prop :=
  st.busy = true → st.done = false ∧ st.valid = false ∧ st.mismatch = false

/-- R30 (b): DONE = 0 implies VALID = 0 and MISMATCH = 0. -/
abbrev Status.OutcomeNeedsDone (st : Status) : Prop := st.done = false → st.valid = false ∧ st.mismatch = false

/-- R30 (c): DONE = 1 implies exactly one of VALID, MISMATCH is 1. -/
abbrev Status.OutcomeExclusive (st : Status) : Prop := st.done = true → st.mismatch = !st.valid

/-- R30 (d), as it is written: VALID = 0 implies HUM = 0 and TEMP = 0. It is NOT kept by an accepted START, which clears
VALID and keeps HUM and TEMP (R164, R168): log 7. It is no part of the invariant below. -/
abbrev State.ReadingNeedsValid (s : State) : Prop := s.status.valid = false → s.hum = 0 ∧ s.temp = 0

/-- What the result registers hold of the last completed decode, or of the reset: THRESH is `SUM div D` (R24), CSUM the
checksum of DATA[0..3] (R26), HUM and TEMP the reading when the checksums are equal and 0 when they are not (R27), and DONE
says with VALID which of the two it was (R142, R143). -/
abbrev State.ResultsAgree (s : State) : Prop :=
  s.thresh.toNat = s.sum.toNat / s.params.divisor.toNat ∧
    s.csum = checksum s.data ∧
    (s.csum = s.data[4] → s.hum = s.data[0] ∧ s.temp = s.data[2]) ∧
    (s.csum ≠ s.data[4] → s.hum = 0 ∧ s.temp = 0) ∧
    (s.status.done = true → s.status.valid = (s.csum == s.data[4]))

/-- The invariant every step keeps. -/
abbrev State.Inv (s : State) : Prop :=
  s.params.Legal ∧ s.Widths ∧ s.status.BusyClean ∧ s.status.OutcomeNeedsDone ∧ s.status.OutcomeExclusive ∧
    s.ResultsAgree

/-- The two states hold the same block registers; what is still to come and the responses given may differ. -/
abbrev State.SameBlock (s t : State) : Prop :=
  t.params = s.params ∧ t.pt = s.pt ∧ t.sum = s.sum ∧ t.thresh = s.thresh ∧ t.data = s.data ∧ t.csum = s.csum ∧
    t.hum = s.hum ∧ t.temp = s.temp ∧ t.status = s.status

/-- The two states hold the same result registers SUM, THRESH, DATA, CSUM, HUM and TEMP. -/
abbrev State.SameResults (s t : State) : Prop :=
  t.sum = s.sum ∧ t.thresh = s.thresh ∧ t.data = s.data ∧ t.csum = s.csum ∧ t.hum = s.hum ∧ t.temp = s.temp

end Sys2Proof.Machine
end

