-- ==== Sys2Proof/Certificates/Slice0/Obligations.lean ====
section
/-! DEFINITION. The statements for the provers, from the numbered rules of spec/. A response is the head of the next state's
`responses`. `{ s with … }` names every field that changes, so such an equation states the frame too. -/

open Sys2Proof Sys2Proof.Machine

/-! ## Reset -/

/-- R230: asserting reset is one atomic step, in any state, that clears every register and cancels a pending completion;
CONFIG is not affected. (That the turns to come and the responses given stay is the model's choice: log 11.) -/
def Obligations.HardResetClearsEveryRegister : Prop :=
  ∀ (s : State) (rest : List Turn), s.schedule = .reset :: rest →
    step s = .next
      { params := s.params, pt := Vector.replicate 82 0, sum := 0, thresh := 0, data := Vector.replicate 5 0, csum := 0,
        hum := 0, temp := 0,
        status := { busy := false, done := false, valid := false, mismatch := false, werr := false, aerr := false },
        schedule := rest, responses := s.responses }

/-- R231: a CTRL write with SRST performs exactly the state change of a hard reset and answers OKAY; START and CLRERR of the
same write are ignored. -/
def Obligations.SoftResetIsAHardResetAnsweredOkay : Prop :=
  ∀ (start clrerr : Bool) (s t : State), step { s with schedule := .reset :: s.schedule } = .next t →
    exec (.wrCtrl start true clrerr) s = .next { t with responses := ⟨.okay, 0⟩ :: s.responses }

/-- R232: what every register reads after a hard or a soft reset. -/
def Obligations.EveryRegisterReadsItsResetValue : Prop :=
  ∀ (s t : State) (rest : List Turn) (start clrerr : Bool),
    (step { s with schedule := .reset :: rest } = .next t ∨ exec (.wrCtrl start true clrerr) s = .next t) →
    (∀ i ∈ [Instr.rdCtrl, .rdStatus, .rdThresh, .rdSum, .rdData, .rdChk, .rdReading],
      exec i t = .next { t with responses := ⟨.okay, 0⟩ :: t.responses }) ∧
    (∀ i : PtIndex, i.toNat ≤ 81 → exec (.rdPt i) t = .next { t with responses := ⟨.okay, 0⟩ :: t.responses }) ∧
    (∃ c : Word, exec .rdConfig t = .next { t with responses := ⟨.okay, c⟩ :: t.responses } ∧
      exec .rdConfig s = .next { s with responses := ⟨.okay, c⟩ :: s.responses } ∧
      (s.params = Params.default → c = 0x00002810))

/-- R239: a reset or SRST while BUSY discards the decode in flight: the engine's next turn changes nothing, DONE stays 0 and
PT is cleared. (That an engine turn while IDLE leaves the state as it is, and is no stop, is the model's inference from R171:
log 3.) -/
def Obligations.ResetDuringDecodeCancelsTheCompletion : Prop :=
  ∀ (s t : State) (start clrerr : Bool), s.status.busy = true →
    (step { s with schedule := .reset :: s.schedule } = .next t ∨ exec (.wrCtrl start true clrerr) s = .next t) →
    exec .engComplete t = .next t ∧ t.status.busy = false ∧ t.status.done = false ∧ t.pt = Vector.replicate 82 0

/-! ## Reads -/

/-- R162: CTRL reads 0 and the read changes nothing. -/
def Obligations.ReadingCtrlAnswersZero : Prop :=
  ∀ s : State, exec .rdCtrl s = .next { s with responses := ⟨.okay, 0x00000000⟩ :: s.responses }

/-- R175: the place of every STATUS field, all other bits 0, and the possible values of bits 3:0 (R30 (a) to (c)). -/
def Obligations.ReadingStatusAnswersItsFields : Prop :=
  ∀ s : State, ∃ w : Word, exec .rdStatus s = .next { s with responses := ⟨.okay, w⟩ :: s.responses } ∧
    w.getLsbD 0 = s.status.busy ∧ w.getLsbD 1 = s.status.done ∧ w.getLsbD 2 = s.status.valid ∧
    w.getLsbD 3 = s.status.mismatch ∧ w.getLsbD 8 = s.status.werr ∧ w.getLsbD 9 = s.status.aerr ∧
    (∀ n, (4 ≤ n ∧ n ≤ 7) ∨ 10 ≤ n → w.getLsbD n = false) ∧
    (s.status.BusyClean → s.status.OutcomeNeedsDone → s.status.OutcomeExclusive →
      w.toNat % 16 = 0b0000 ∨ w.toNat % 16 = 0b0001 ∨ w.toNat % 16 = 0b0110 ∨ w.toNat % 16 = 0b1010)

/-- R176 and R177: THRESH and SUM read zero-extended: the bits above the registers' widths are 0, and THRESH is the floored
quotient in both modes, in every state that meets the invariant. -/
def Obligations.ReadingThreshAndSumZeroExtends : Prop :=
  ∀ s : State,
    exec .rdThresh s = .next { s with responses := ⟨.okay, s.thresh⟩ :: s.responses } ∧
    exec .rdSum s = .next { s with responses := ⟨.okay, s.sum⟩ :: s.responses } ∧
    (s.Inv → (∀ n, s.params.cntW ≤ n → s.thresh.getLsbD n = false) ∧
      (∀ n, s.params.cntW + 6 ≤ n → s.sum.getLsbD n = false) ∧
      s.thresh.toNat = s.sum.toNat / s.params.divisor.toNat)

/-- R178: DATA[j] is bits 8j+7 to 8j of the word, j = 0..3. -/
def Obligations.ReadingDataPacksBytesZeroToThree : Prop :=
  ∀ s : State, ∃ w : Word, exec .rdData s = .next { s with responses := ⟨.okay, w⟩ :: s.responses } ∧
    ∀ j : Fin 4, w.extractLsb' (8 * j.val) 8 = s.data[j.val]

/-- R179: DATA[4] below, CSUM above it, and 0; the two bytes are equal exactly when the last completion set VALID. -/
def Obligations.ReadingChkShowsBothChecksums : Prop :=
  ∀ s : State, ∃ w : Word, exec .rdChk s = .next { s with responses := ⟨.okay, w⟩ :: s.responses } ∧
    w.extractLsb' 0 8 = s.data[4] ∧ w.extractLsb' 8 8 = s.csum ∧ w.extractLsb' 16 16 = 0 ∧
    (s.Inv → s.status.done = true → (w.extractLsb' 8 8 = w.extractLsb' 0 8 ↔ s.status.valid = true))

/-- R180: HUM below, TEMP above it, and 0; READING is 0 when the last completion was a mismatch, also while the next decode
is in flight, and after a reset; 0 is a legal valid reading too. -/
def Obligations.ReadingTheReadingShowsHumAndTemp : Prop :=
  (∃ s : State, s.Inv ∧ s.status.valid = true ∧
    exec .rdReading s = .next { s with responses := ⟨.okay, 0⟩ :: s.responses }) ∧
  ∀ s : State, ∃ w : Word, exec .rdReading s = .next { s with responses := ⟨.okay, w⟩ :: s.responses } ∧
    w.extractLsb' 0 8 = s.hum ∧ w.extractLsb' 8 8 = s.temp ∧ w.extractLsb' 16 16 = 0 ∧
    (s.Inv → s.csum ≠ s.data[4] → w = 0) ∧
    (∀ (t : State) (start clrerr : Bool),
      (step { t with schedule := .reset :: t.schedule } = .next s ∨ exec (.wrCtrl start true clrerr) t = .next s) → w = 0)

/-- R33 and R181: the three build parameters in their places, 0 above them; the default build reads 0x00002810; the value is
the same after every step. -/
def Obligations.ReadingConfigAnswersTheBuild : Prop :=
  ∀ s : State, s.params.Legal → ∃ w : Word,
    exec .rdConfig s = .next { s with responses := ⟨.okay, w⟩ :: s.responses } ∧
    (w.extractLsb' 0 8).toNat = s.params.cntW ∧ (w.extractLsb' 8 8).toNat = s.params.divisor.toNat ∧
    (w.getLsbD 16 = true ↔ s.params.mode = .exact) ∧ w.extractLsb' 17 15 = 0 ∧
    (s.params = Params.default → w = 0x00002810) ∧
    (∀ t : State, step s = .next t → exec .rdConfig t = .next { t with responses := ⟨.okay, w⟩ :: t.responses })

/-- R167: RD_PT answers the counter, whether or not the engine is BUSY; an index above 81 is a BUS_ERROR. -/
def Obligations.ReadingPtAnswersTheCounter : Prop :=
  ∀ (s : State) (i : PtIndex),
    (∀ h : i.toNat < 82, exec (.rdPt i) s = .next { s with responses := ⟨.okay, s.pt[i.toNat]⟩ :: s.responses }) ∧
    (82 ≤ i.toNat → exec (.rdPt i) s =
      .next { s with status := { s.status with aerr := true }, responses := ⟨.err, 0⟩ :: s.responses })

/-- R58, R168: a read of a register has no side effect, and reading again gives the same value. -/
def Obligations.ReadsAreRepeatable : Prop :=
  ∀ (s : State) (i : Instr),
    i ∈ [Instr.rdCtrl, .rdStatus, .rdThresh, .rdSum, .rdData, .rdChk, .rdReading, .rdConfig] ∨
      (∃ n : PtIndex, n.toNat ≤ 81 ∧ i = .rdPt n) →
    ∃ (w : Word) (t : State), exec i s = .next t ∧ s.SameBlock t ∧ t.schedule = s.schedule ∧
      t.responses = ⟨.okay, w⟩ :: s.responses ∧
      exec i t = .next { t with responses := ⟨.okay, w⟩ :: t.responses }

/-! ## Writes and commands -/

/-- R166: WR_PT stores the low CNT_W bits while IDLE, is dropped with WERR while BUSY, and is a BUS_ERROR above index 81.
Whatever PT[0] or PT[1] holds, the data-low sum and the bytes PT encodes are the same. -/
def Obligations.WritingPtStoresWhileIdleOnly : Prop :=
  ∀ (s : State) (i : PtIndex) (w : Word),
    (∀ h : i.toNat < 82, s.status.busy = false → exec (.wrPt i w) s =
      .next { s with
        pt := s.pt.set i.toNat (BitVec.ofNat 32 (w.toNat % 2 ^ s.params.cntW)) h
        responses := ⟨.okay, 0⟩ :: s.responses }) ∧
    (i.toNat < 82 → s.status.busy = true → exec (.wrPt i w) s =
      .next { s with status := { s.status with werr := true }, responses := ⟨.okay, 0⟩ :: s.responses }) ∧
    (82 ≤ i.toNat → exec (.wrPt i w) s =
      .next { s with status := { s.status with aerr := true }, responses := ⟨.err, 0⟩ :: s.responses }) ∧
    (∀ h : i.toNat < 82, i.toNat < 2 →
      { s with pt := s.pt.set i.toNat w h }.dataLowSum = s.dataLowSum ∧
      ∀ b : DataBytes, { s with pt := s.pt.set i.toNat w h }.PulsesEncode b ↔ s.PulsesEncode b)

/-- R164: START while IDLE sets BUSY and clears DONE, VALID and MISMATCH, keeping every result register; while BUSY it sets
WERR and nothing else. -/
def Obligations.StartIsAcceptedWhileIdleOnly : Prop :=
  ∀ s : State,
    (s.status.busy = false → exec (.wrCtrl true false false) s =
      .next { s with
        status := { s.status with busy := true, done := false, valid := false, mismatch := false }
        responses := ⟨.okay, 0⟩ :: s.responses }) ∧
    (s.status.busy = true → exec (.wrCtrl true false false) s =
      .next { s with status := { s.status with werr := true }, responses := ⟨.okay, 0⟩ :: s.responses })

/-- R165: CLRERR clears WERR and AERR and nothing else, also while BUSY. -/
def Obligations.ClearErrorsClearsTheTwoStickyBits : Prop :=
  ∀ s : State, exec (.wrCtrl false false true) s =
    .next { s with status := { s.status with werr := false, aerr := false }, responses := ⟨.okay, 0⟩ :: s.responses }

/-- R163: the whole of a CTRL write without SRST, flag by flag: CLRERR is applied before START, so a START refused in the
same write leaves WERR = 1, and a write without a command bit changes no register; with SRST no other bit matters; the
command bits are WDATA[0], WDATA[1] and WDATA[2]. (That SRST keeps the turns to come and the responses given is the model's
choice: log 11.) -/
def Obligations.ControlWriteAppliesItsCommandsInOrder : Prop :=
  (∀ w : Word, decode ⟨0xA000, w⟩ = .wrCtrl (w.getLsbD 0) (w.getLsbD 1) (w.getLsbD 2)) ∧
  ∀ (start clrerr : Bool) (s : State),
    exec (.wrCtrl start false clrerr) s =
      .next { s with
        status :=
          { busy := s.status.busy || start
            done := s.status.done && (s.status.busy || !start)
            valid := s.status.valid && (s.status.busy || !start)
            mismatch := s.status.mismatch && (s.status.busy || !start)
            werr := (s.status.werr && !clrerr) || (start && s.status.busy)
            aerr := s.status.aerr && !clrerr }
        responses := ⟨.okay, 0⟩ :: s.responses } ∧
    exec (.wrCtrl start true clrerr) s =
      .next { State.resetOf s.params with schedule := s.schedule, responses := ⟨.okay, 0⟩ :: s.responses }

/-! ## Errors -/

/-- R170: an illegal request is answered ERR with 0 and sets AERR; nothing else changes. -/
def Obligations.BusErrorSetsAerrAndNothingElse : Prop :=
  ∀ (r : Request) (s : State), exec (.busError r) s =
    .next { s with status := { s.status with aerr := true }, responses := ⟨.err, 0⟩ :: s.responses }

/-- R202, R74: a request is answered ERR exactly when RSV = 1, SIZE ≠ 0b10, ADDR[1:0] ≠ 0, ADDR is reserved (a PT index
above 81 among them) or it writes a read-only register; every other request is answered OKAY and leaves AERR as it was or
clears it. -/
def Obligations.RequestsErrExactlyWhenIllegal : Prop :=
  ∀ (s : State) (r : Request),
    let a := (r.header.extractLsb' 0 12).toNat
    let illegal : Prop :=
      r.header.getLsbD 14 = true ∨ r.header.extractLsb' 12 2 ≠ 0b10 ∨ a % 4 ≠ 0 ∨
        (0x020 ≤ a ∧ a ≤ 0x3FC) ∨ (0x548 ≤ a ∧ a ≤ 0x5FC) ∨ 0x600 ≤ a ∨
        (r.header.getLsbD 15 = true ∧ 0x004 ≤ a ∧ a ≤ 0x01C)
    (illegal → exec (decode r) s =
      .next { s with status := { s.status with aerr := true }, responses := ⟨.err, 0⟩ :: s.responses }) ∧
    (¬illegal → ∃ (t : State) (w : Word), exec (decode r) s = .next t ∧ t.responses = ⟨.okay, w⟩ :: s.responses ∧
      (t.status.aerr = true → s.status.aerr = true))

/-- R169: a write to a read-only register is a BUS_ERROR and the register is unchanged. -/
def Obligations.WritingAReadOnlyRegisterIsABusError : Prop :=
  ∀ (s : State) (h : Header) (w : Word), h ∈ [(0xA004 : Header), 0xA008, 0xA00C, 0xA010, 0xA014, 0xA018, 0xA01C] →
    decode ⟨h, w⟩ = .busError ⟨h, w⟩ ∧
    exec (decode ⟨h, w⟩) s =
      .next { s with status := { s.status with aerr := true }, responses := ⟨.err, 0⟩ :: s.responses }

/-- R203: in a state with WERR = 0, a request sets WERR exactly when it is a legal WR_PT or a WR_CTRL with START = 1 and
SRST = 0 while BUSY; it is answered OKAY and the write or START is dropped. -/
def Obligations.WriteWhileBusySetsWerrExactly : Prop :=
  ∀ (s : State) (r : Request), s.status.werr = false → ∃ t : State, exec (decode r) s = .next t ∧
    (t.status.werr = true ↔
      s.status.busy = true ∧
        ((∃ (i : PtIndex) (w : Word), decode r = .wrPt i w) ∨ ∃ clrerr : Bool, decode r = .wrCtrl true false clrerr)) ∧
    (t.status.werr = true →
      t.responses = ⟨.okay, 0⟩ :: s.responses ∧ t.pt = s.pt ∧ s.SameResults t ∧ t.status.busy = true ∧
        t.status.done = s.status.done ∧ t.status.valid = s.status.valid ∧ t.status.mismatch = s.status.mismatch)

/-- R207, R29: WERR and AERR are sticky: a step that clears one is a reset, or a CTRL write with SRST or CLRERR. -/
def Obligations.StickyErrorBitsAreClearedByCommandOnly : Prop :=
  ∀ s t : State, step s = .next t →
    (s.status.werr = true ∧ t.status.werr = false) ∨ (s.status.aerr = true ∧ t.status.aerr = false) →
    (∃ rest, s.schedule = .reset :: rest) ∨
      ∃ (r : Request) (rest : List Turn) (start srst clrerr : Bool),
        s.schedule = .request r :: rest ∧ decode r = .wrCtrl start srst clrerr ∧ (srst = true ∨ clrerr = true)

/-! ## Encoding -/

/-- R72, R73: decoding the encoding of a well-formed instruction gives it back, and exactly the engine steps have none
(R77). -/
def Obligations.DecodingAnEncodingGivesTheInstruction : Prop :=
  ∀ i : Instr, i.wellFormed = true →
    (i.isEngineStep = true ∧ encode i = none) ∨
      (i.isEngineStep = false ∧ ∃ r : Request, encode i = some r ∧ decode r = i)

/-- Every request decodes to a well-formed transaction whose encoding has the same header and decodes alike: no header bit
is lost (R73, R74). -/
def Obligations.EncodingADecodedRequestKeepsItsHeader : Prop :=
  ∀ r : Request, (decode r).wellFormed = true ∧
    ∃ r' : Request, encode (decode r) = some r' ∧ r'.header = r.header ∧ decode r' = decode r

/-- R73: the rows of the opcode map are pairwise disjoint. -/
def Obligations.OpcodeRowsAreDisjoint : Prop :=
  ∀ (h : Header) (a b : HeaderRow), a ∈ headerRows → b ∈ headerRows → a.hits h = true → b.hits h = true → a = b

/-- R161: decoding depends on the header alone. -/
def Obligations.DecodingIgnoresWdata : Prop :=
  ∀ (h : Header) (w w' : Word), (decode ⟨h, w⟩).mnemonic = (decode ⟨h, w'⟩).mnemonic

/-- R75: reserved bits of legal requests are ignored: WDATA of a read, WDATA[31:3] of a CTRL write, and WDATA[31:CNT_W] of
a PT write. -/
def Obligations.ReservedBitsOfLegalRequestsAreIgnored : Prop :=
  (∀ (h : Header) (w w' : Word), h.legal = true → h.getLsbD 15 = false → decode ⟨h, w⟩ = decode ⟨h, w'⟩) ∧
  (∀ w w' : Word, w.toNat % 8 = w'.toNat % 8 → decode ⟨0xA000, w⟩ = decode ⟨0xA000, w'⟩) ∧
  (∀ (s : State) (i : PtIndex) (w w' : Word), w.toNat % 2 ^ s.params.cntW = w'.toNat % 2 ^ s.params.cntW →
    exec (.wrPt i w) s = exec (.wrPt i w') s)

/-- R52: in the PT window a 32-bit aligned request is RD_PT or WR_PT of index ADDR[8:2] when that is at most 81, and a
BUS_ERROR when it is 82 to 127. -/
def Obligations.PulseTrainWindowDecodesByIndex : Prop :=
  ∀ (r : Request) (we : Bool) (i : PtIndex),
    r.header = BitVec.ofBool we ++ 0#1 ++ 0b10#2 ++ 0b010#3 ++ i ++ 0b00#2 →
    (i.toNat ≤ 81 → decode r = if we then .wrPt i r.wdata else .rdPt i) ∧ (82 ≤ i.toNat → decode r = .busError r)

/-- Request words of R79, the table of R73 and the vectors V-H18 to V-H24, written out (R73, R79). A sanity statement. -/
def Obligations.WordsOfTheSpecDecode : Prop :=
  decode ⟨0xA000, 0x00000001⟩ = .wrCtrl true false false ∧ decode ⟨0xA000, 0x00000002⟩ = .wrCtrl false true false ∧
  decode ⟨0xA000, 0x00000004⟩ = .wrCtrl false false true ∧ decode ⟨0x2000, 0⟩ = .rdCtrl ∧
  decode ⟨0x2004, 0⟩ = .rdStatus ∧ decode ⟨0x2008, 0⟩ = .rdThresh ∧ decode ⟨0x200C, 0⟩ = .rdSum ∧
  decode ⟨0x2010, 0⟩ = .rdData ∧ decode ⟨0x2014, 0⟩ = .rdChk ∧ decode ⟨0x2018, 0⟩ = .rdReading ∧
  decode ⟨0x201C, 0⟩ = .rdConfig ∧ decode ⟨0xA40C, 0x00000050⟩ = .wrPt 3 0x50 ∧ decode ⟨0x2544, 0⟩ = .rdPt 81 ∧
  decode ⟨0x2548, 0⟩ = .busError ⟨0x2548, 0⟩ ∧ decode ⟨0x8000, 1⟩ = .busError ⟨0x8000, 1⟩ ∧
  decode ⟨0x6004, 0⟩ = .busError ⟨0x6004, 0⟩ ∧ decode ⟨0x2402, 0⟩ = .busError ⟨0x2402, 0⟩

/-! ## The engine -/

/-- R100 and R101: while BUSY the threshold stage gives SUM the exact sum of the 40 data-low counters and THRESH its floored
quotient; neither overflows its register, and nothing else changes. (A stage's row on its own is the model's choice: log 8.) -/
def Obligations.ThresholdStageSumsAndDivides : Prop :=
  ∀ s : State, s.status.busy = true → s.params.Legal → s.Widths → ∃ t : State,
    exec .engThreshold s = .next t ∧ t = { s with sum := t.sum, thresh := t.thresh } ∧
    t.sum.toNat = s.dataLowSum ∧ t.thresh.toNat = s.dataLowSum / s.params.divisor.toNat ∧
    t.sum.toNat < 2 ^ s.params.sumW ∧ t.thresh.toNat < 2 ^ s.params.cntW

/-- R102: the two modes, that they differ exactly at `h = S div D` with a remainder, and that INT is the default. -/
def Obligations.ThresholdModesDifferOnlyAtTheFlooredQuotient : Prop :=
  State.reset.params.mode = .int ∧
  ∀ (w S h : Nat) (d : Divisor),
    (meets ⟨w, d, .int⟩ S h = true ↔ S / d.toNat ≤ h) ∧ (meets ⟨w, d, .exact⟩ S h = true ↔ S ≤ h * d.toNat) ∧
    (meets ⟨w, d, .int⟩ S h ≠ meets ⟨w, d, .exact⟩ S h ↔ S % d.toNat ≠ 0 ∧ h = S / d.toNat)

/-- R103: a threshold `q` that is exact when D divides S, and otherwise within 2^−27 of S / D (as a correctly rounded
binary64 quotient is, from general knowledge: log 15), classifies as EXACT mode does. -/
def Obligations.ExactModeAgreesWithARoundedAverage : Prop :=
  ∀ (p : Params) (S h : Nat) (q : ℚ), p.mode = .exact → S < 2 ^ 32 →
    (p.divisor.toNat ∣ S → q = p.exactAverage S) → |q - p.exactAverage S| ≤ 1 / 2 ^ 27 →
    (meets p S h = true ↔ q ≤ (h : ℚ))

/-- R121: a counter equal to the threshold classifies as 1; in EXACT mode the floored quotient of an inexact division is
below it. -/
def Obligations.ACounterEqualToTheThresholdIsOne : Prop :=
  ∀ (p : Params) (S : Nat) (pt : PulseTrain) (n : Nat),
    (p.mode = .int → counter pt (2 * n + 3) = S / p.divisor.toNat → classifyBit p S pt n = true) ∧
    (p.mode = .exact → counter pt (2 * n + 3) * p.divisor.toNat = S → classifyBit p S pt n = true) ∧
    (p.mode = .exact → counter pt (2 * n + 3) = S / p.divisor.toNat → S % p.divisor.toNat ≠ 0 →
      classifyBit p S pt n = false)

/-- R120, R122, R123: while BUSY the classifier gives DATA the bytes PT encodes, bit 7 − m of byte j from
PT[16j + 2m + 3], and changes nothing else. (A stage's row on its own is the model's choice: log 8.) -/
def Obligations.ClassifierPacksEachByteMostSignificantFirst : Prop :=
  ∀ s : State, s.status.busy = true → ∃ t : State,
    exec .engClassify s = .next t ∧ t = { s with data := t.data } ∧ s.PulsesEncode t.data

/-- R125: the packed bytes do not depend on what the byte registers held before the 40 shifts. -/
def Obligations.PackingForgetsTheInitialBytes : Prop :=
  ∀ (bits : Nat → Bool) (b b' : DataBytes), packUpTo bits b 40 = packUpTo bits b' 40

/-- R140 to R143: while BUSY the validator writes the checksum of DATA[0..3], and VALID with the reading when it equals
DATA[4], else MISMATCH and a reading of 0; nothing else changes. (A stage's row on its own is the model's choice: log 8.) -/
def Obligations.ValidatorChecksTheFifthByte : Prop :=
  ∀ s : State, s.status.busy = true → ∃ t : State, exec .engValidate s = .next t ∧
    t = { s with csum := t.csum, hum := t.hum, temp := t.temp, status := t.status } ∧
    t.csum.toNat = (s.data[0].toNat + s.data[1].toNat + s.data[2].toNat + s.data[3].toNat) % 256 ∧
    (t.csum = s.data[4] → t.hum = s.data[0] ∧ t.temp = s.data[2] ∧
      t.status = { s.status with valid := true, mismatch := false }) ∧
    (t.csum ≠ s.data[4] → t.hum = 0 ∧ t.temp = 0 ∧ t.status = { s.status with valid := false, mismatch := true })

/-- R172, R100, R101, R123, R140 to R143: the completion while BUSY writes every result register and STATUS at one instant;
SUM and THRESH fit in their registers; PT, WERR, AERR, CONFIG and the host's side are unchanged. -/
def Obligations.CompletionWritesEveryResultAtOnce : Prop :=
  ∀ s : State, s.status.busy = true → s.params.Legal → s.Widths → ∃ t : State,
    exec .engComplete s = .next t ∧
    t = { s with
          sum := t.sum, thresh := t.thresh, data := t.data, csum := t.csum, hum := t.hum, temp := t.temp
          status := { s.status with busy := false, done := true, valid := t.status.valid, mismatch := t.status.mismatch } } ∧
    t.sum.toNat = s.dataLowSum ∧ t.thresh.toNat = s.dataLowSum / s.params.divisor.toNat ∧
    t.sum.toNat < 2 ^ s.params.sumW ∧ t.thresh.toNat < 2 ^ s.params.cntW ∧
    s.PulsesEncode t.data ∧
    t.csum.toNat = (t.data[0].toNat + t.data[1].toNat + t.data[2].toNat + t.data[3].toNat) % 256 ∧
    (t.csum = t.data[4] →
      t.status.valid = true ∧ t.status.mismatch = false ∧ t.hum = t.data[0] ∧ t.temp = t.data[2]) ∧
    (t.csum ≠ t.data[4] → t.status.valid = false ∧ t.status.mismatch = true ∧ t.hum = 0 ∧ t.temp = 0)

/-- R104, R172: the completion is the three stages in order and then the end of the decode. (What a stage's row does on its
own is the model's choice: log 8.) -/
def Obligations.CompletionIsTheThreeStagesInOrder : Prop :=
  ∀ s : State, s.status.busy = true → ∃ a b c : State,
    exec .engThreshold s = .next a ∧ exec .engClassify a = .next b ∧ exec .engValidate b = .next c ∧
    exec .engComplete s = .next { c with status := { c.status with busy := false, done := true } }

/-- R171: while IDLE the engine has no step: each engine row leaves the state as it is (the model's no-op: log 3). -/
def Obligations.TheEngineDoesNothingWhileIdle : Prop :=
  ∀ s : State, s.status.busy = false → ∀ i : Instr, i.isEngineStep = true → exec i s = .next s

/-- R22, R35, R105, R126: a completion's results are a function of PT[2..81] and the parameters: PT[0], PT[1], the previous
results and the error bits do not matter. -/
def Obligations.ResultsDependOnTheDataCountersOnly : Prop :=
  ∀ s s' : State, s.status.busy = true → s'.status.busy = true → s.params = s'.params →
    (∀ i : Fin 82, 2 ≤ i.val → s.pt[i] = s'.pt[i]) →
    ∃ t t' : State, exec .engComplete s = .next t ∧ exec .engComplete s' = .next t' ∧ t.SameResults t' ∧
      t.status.valid = t'.status.valid ∧ t.status.mismatch = t'.status.mismatch

/-- R147: a pulse train that encodes b0..b3 and their checksum decodes to VALID with the reading (b0, b2). -/
def Obligations.AValidPulseTrainGivesItsReading : Prop :=
  ∀ (s : State) (b0 b1 b2 b3 b4 : Byte), s.status.busy = true →
    b4.toNat = (b0.toNat + b1.toNat + b2.toNat + b3.toNat) % 256 → s.PulsesEncode #v[b0, b1, b2, b3, b4] →
    ∃ t : State, exec .engComplete s = .next t ∧ t.data = #v[b0, b1, b2, b3, b4] ∧ t.status.done = true ∧
      t.status.valid = true ∧ t.status.mismatch = false ∧ t.hum = b0 ∧ t.temp = b2

/-- R148: one flipped bit in one of the five bytes of a pulse train with a right checksum gives MISMATCH and no reading;
two flips, bit 0 of b0 set and bit 0 of b1 cleared, leave the sum unchanged and still give VALID. -/
def Obligations.ASingleBitFlipIsAlwaysDetected : Prop :=
  ∀ (s : State) (b : DataBytes), s.status.busy = true →
    b[4].toNat = (b[0].toNat + b[1].toNat + b[2].toNat + b[3].toNat) % 256 →
    (∀ (j : Fin 5) (k : Fin 8), s.PulsesEncode (b.set j.val (b[j] ^^^ BitVec.twoPow 8 k.val)) →
      ∃ t : State, exec .engComplete s = .next t ∧ t.status.done = true ∧ t.status.mismatch = true ∧
        t.status.valid = false ∧ t.hum = 0 ∧ t.temp = 0) ∧
    (b[0].getLsbD 0 = false → b[1].getLsbD 0 = true →
      s.PulsesEncode #v[b[0] ^^^ 1, b[1] ^^^ 1, b[2], b[3], b[4]] →
      ∃ t : State, exec .engComplete s = .next t ∧ t.status.done = true ∧ t.status.valid = true)

/-- R238: a second START without a new pulse train decodes the same counters and gives the same results. -/
def Obligations.DecodingAgainGivesTheSameResults : Prop :=
  ∀ s : State, s.status.busy = true → ∃ t u v : State,
    exec .engComplete s = .next t ∧ exec (.wrCtrl true false false) t = .next u ∧ exec .engComplete u = .next v ∧
    t.SameResults v ∧ v.pt = s.pt ∧ v.status = t.status

/-! ## Invariants -/

/-- The invariant holds in the default build's reset state and in that of every legal build (R230, R6). -/
def Obligations.ResetMeetsTheInvariant : Prop :=
  State.reset.Inv ∧ ∀ p : Params, p.Legal → (State.resetOf p).Inv

/-- Every step keeps the invariant: the register widths (R20, R23, R24), R30 (a) to (c), and that the result registers
agree with each other (R24, R26, R27). R30 (d) is no part of it (log 7). -/
def Obligations.EveryStepKeepsTheInvariant : Prop :=
  ∀ s t : State, s.Inv → step s = .next t → t.Inv

/-- R30 (d) as written is lost by an accepted START, which clears VALID and keeps HUM and TEMP (R164, R168); it holds of
every state with DONE = 1 that meets the invariant. This is the model's reading of a conflict the spec does not log
(log 7). -/
def Obligations.ReadingIsZeroAfterAMismatchButNotAfterStart : Prop :=
  (∀ s : State, s.Inv → s.status.done = true → s.status.valid = false → s.hum = 0 ∧ s.temp = 0) ∧
  ∃ s t : State, s.Inv ∧ s.ReadingNeedsValid ∧ exec (.wrCtrl true false false) s = .next t ∧ ¬t.ReadingNeedsValid

/-- R20, R63, R171: a step that changes PT is a reset, an SRST, or a WR_PT of a counter that exists while IDLE. -/
def Obligations.PtIsWrittenByTheHostWhileIdleOnly : Prop :=
  ∀ s t : State, step s = .next t → t.pt ≠ s.pt →
    (∃ rest, s.schedule = .reset :: rest) ∨
      ∃ (r : Request) (rest : List Turn), s.schedule = .request r :: rest ∧
        ((∃ start clrerr : Bool, decode r = .wrCtrl start true clrerr) ∨
          ∃ (i : PtIndex) (w : Word), decode r = .wrPt i w ∧ i.toNat ≤ 81 ∧ s.status.busy = false)

/-- R23 to R27, R31: a step that changes a result register is a completion while BUSY, a reset or an SRST. -/
def Obligations.ResultsAreWrittenByCompletionOrResetOnly : Prop :=
  ∀ s t : State, step s = .next t → ¬s.SameResults t →
    (s.status.busy = true ∧ (s.schedule = [] ∨ ∃ rest, s.schedule = .engine :: rest)) ∨
      (∃ rest, s.schedule = .reset :: rest) ∨
      ∃ (r : Request) (rest : List Turn) (start clrerr : Bool),
        s.schedule = .request r :: rest ∧ decode r = .wrCtrl start true clrerr

/-- R61: once DONE is 1, a step that is no START, SRST or reset keeps DONE, VALID, MISMATCH and every result register. -/
def Obligations.DoneResultsStayUntilTheNextStart : Prop :=
  ∀ s t : State, s.status.BusyClean → s.status.done = true → step s = .next t →
    (¬∃ rest, s.schedule = .reset :: rest) →
    (¬∃ (r : Request) (rest : List Turn) (start srst clrerr : Bool),
      s.schedule = .request r :: rest ∧ decode r = .wrCtrl start srst clrerr ∧ (start = true ∨ srst = true)) →
    s.SameResults t ∧ t.status.done = true ∧ t.status.valid = s.status.valid ∧ t.status.mismatch = s.status.mismatch

/-! ## Steps -/

/-- R160, R161: a host turn performs the decoded request at the state with that turn taken off the schedule; the decoded
instruction is well-formed. -/
def Obligations.StepRunsTheDecodedRequest : Prop :=
  ∀ (s : State) (r : Request) (rest : List Turn), s.schedule = .request r :: rest →
    (decode r).wellFormed = true ∧ step s = exec (decode r) { s with schedule := rest }

/-- R171, R173: an engine turn is the completion step, and when no turn is left the pending completion still comes; an IDLE
block with no turn left holds its state (R214). The schedule is the model's own (log 1, log 2). -/
def Obligations.StepRunsTheCompletion : Prop :=
  ∀ s : State,
    (∀ rest : List Turn, s.schedule = .engine :: rest → step s = exec .engComplete { s with schedule := rest }) ∧
    (s.schedule = [] → step s = exec .engComplete s) ∧
    (s.schedule = [] → s.status.busy = false → step s = .next s)

/-- R71, R160: every request gets exactly one response; a write's RDATA is 0 and an ERR response's RDATA is 0. -/
def Obligations.EveryRequestGetsOneResponse : Prop :=
  ∀ (s : State) (r : Request) (rest : List Turn), s.schedule = .request r :: rest →
    ∃ (t : State) (answer : Response), step s = .next t ∧ t.schedule = rest ∧ t.responses = answer :: s.responses ∧
      (r.header.getLsbD 15 = true → answer.rdata = 0) ∧ (answer.resp = .err → answer.rdata = 0)

/-- R206, R214: nothing stops the block: every step answers a next state, and one that is no request gives no response. -/
def Obligations.EveryStepAnswersANextState : Prop :=
  ∀ s : State, ∃ t : State, step s = .next t ∧ t.schedule = s.schedule.tail ∧
    ((¬∃ (r : Request) (rest : List Turn), s.schedule = .request r :: rest) → t.responses = s.responses)

/-- R173: no decode stays pending for ever: when the turns of the schedule have run, one more step leaves the block IDLE,
from any state. It claims no result: a reset in the schedule cancels a decode. (That a schedule is finite is the model's form
of weak fairness: log 1.) -/
def Obligations.BlockIsIdleOnceTheScheduleHasRun : Prop :=
  ∀ s : State, ∃ t : State,
    runSteps (s.schedule.length + 1) s = .next t ∧ t.schedule = [] ∧ t.status.busy = false

/-- R173, R174, I12: a PT write issued right after START: with the completion after it the write is dropped and WERR set,
with the completion before it the write lands; the decode's results are the same in both orders. -/
def Obligations.BothOrdersOfWriteAndCompletionAreAdmitted : Prop :=
  ∀ (s : State) (i : PtIndex) (w : Word) (hi : i.toNat < 82), s.status.busy = false → s.status.werr = false →
    ∃ a b : State,
      runSteps 3
        { s with schedule := [.request .start, .request (.wrpt i.toNat w), .engine] } = .next a ∧
      runSteps 3
        { s with schedule := [.request .start, .engine, .request (.wrpt i.toNat w)] } = .next b ∧
      a.pt = s.pt ∧ a.status.werr = true ∧ a.status.done = true ∧
      b.pt = s.pt.set i.toNat (BitVec.ofNat 32 (w.toNat % 2 ^ s.params.cntW)) hi ∧ b.status.werr = false ∧
      b.status.done = true ∧ a.SameResults b ∧ a.status.valid = b.status.valid ∧
      a.responses = b.responses

/-! ## The host's decode procedure -/

/-- R182 (2): writing a capture counter by counter, from an IDLE block, stores the low CNT_W bits of each and answers 82
times OKAY. -/
def Obligations.LoadingACaptureStoresEveryCounter : Prop :=
  ∀ (s : State) (capture : PulseTrain), s.status.busy = false → ∃ t : State,
    runSteps 82 { s with schedule := writeCounters 0 capture.toList } = .next t ∧
    t = { s with
          pt := capture.map fun c => BitVec.ofNat 32 (c.toNat % 2 ^ s.params.cntW)
          schedule := []
          responses := List.replicate 82 ⟨.okay, 0⟩ ++ s.responses }

/-- R182: for every capture whose counters fit in CNT_W bits (R235), the host's procedure on an IDLE block ends with the
outcome of that capture: the reading (b0, b2) when the fifth byte it encodes is the checksum of the other four, else
ChecksumMismatch; the last two responses are the STATUS the host decides by and READING. (That the completion comes before the
one poll, and that this host reads READING after a mismatch too, where R182 (5) asks for no read, is the model's choice of one
run: log 22.) -/
def Obligations.TheDecodeProcedureReportsTheCapture : Prop :=
  ∀ (s : State) (capture : PulseTrain), s.status.busy = false → s.status.werr = false → s.status.aerr = false →
    (∀ i : Fin 82, capture[i].toNat < 2 ^ s.params.cntW) →
    ∃ (t : State) (b : DataBytes),
      runSteps 86 { s with schedule := decodeProcedure capture } = .next t ∧
      t.pt = capture ∧ t.PulsesEncode b ∧ t.data = b ∧
      ((b[0].toNat + b[1].toNat + b[2].toNat + b[3].toNat) % 256 = b[4].toNat →
        t.outcome = some (.reading b[0].toNat b[2].toNat) ∧
        ∃ earlier, t.responses =
          ⟨.okay, BitVec.ofNat 32 (b[0].toNat + 256 * b[2].toNat)⟩ :: ⟨.okay, 0x00000006⟩ :: earlier) ∧
      ((b[0].toNat + b[1].toNat + b[2].toNat + b[3].toNat) % 256 ≠ b[4].toNat →
        t.outcome = some .checksumMismatch ∧
        ∃ earlier, t.responses = ⟨.okay, 0⟩ :: ⟨.okay, 0x0000000A⟩ :: earlier)
end

