-- ==== Sys2Proof/Laws/Decode.lean ====
section
/-! SUPPORT. The decoder in terms of the header's number, and what a request can decode to, said once (30_encoding.md R73,
R74). -/

namespace Sys2Proof

/-- A row with all header bits under the mask hits one header. -/
theorem hits_full_mask (p h : Header) : (HeaderRow.mk p 0xFFFF).hits h = true ↔ h.toNat = p.toNat := by
  have h1 : h &&& 0xFFFF#16 = h := by
    rw [show (0xFFFF#16) = BitVec.allOnes 16 by decide, BitVec.and_allOnes]
  simp only [HeaderRow.hits, beq_iff_eq]
  rw [show (65535 : Header) = 0xFFFF#16 from rfl, h1, BitVec.toNat_inj]

/-- The PT rows' mask keeps the seven upper and the two lower bits. -/
theorem and_ptMask (n : Nat) (hn : n < 2 ^ 16) : n &&& 0xFE03 = n / 512 * 512 + n % 4 := by
  have h1 : n / 512 * 512 + n % 4 = (n / 2 ^ 9) <<< 9 ||| n % 2 ^ 2 := by
    rw [← Nat.shiftLeft_add_eq_or_of_lt (by omega), Nat.shiftLeft_eq]; norm_num
  rw [h1]
  apply Nat.eq_of_testBit_eq
  intro k
  rw [Nat.testBit_and, Nat.testBit_or, Nat.testBit_shiftLeft, Nat.testBit_mod_two_pow, Nat.testBit_div_two_pow]
  by_cases hk : k < 16
  · interval_cases k <;> simp [Nat.testBit]
  · have h2 : n.testBit k = false := Nat.testBit_lt_two_pow (lt_of_lt_of_le hn (Nat.pow_le_pow_right (by decide) (by omega)))
    have h3 : k - 9 + 9 = k := by omega
    simp [h2, h3]

/-- A PT row hits the word-aligned headers of its 512-byte window. -/
theorem hits_ptMask (p h : Header) :
    (HeaderRow.mk p 0xFE03).hits h = true ↔ h.toNat / 512 * 512 + h.toNat % 4 = p.toNat := by
  simp only [HeaderRow.hits, beq_iff_eq]
  rw [← BitVec.toNat_inj, BitVec.toNat_and, show (65027 : Header).toNat = 0xFE03 from rfl, and_ptMask _ h.isLt]

theorem ptIndexOf_toNat (h : Header) : (ptIndexOf h).toNat = h.toNat / 4 % 128 := by
  simp [ptIndexOf, BitVec.extractLsb'_toNat, Nat.shiftRight_eq_div_pow]

/-- The decoder in terms of the header's number. -/
theorem decode_eq_byNumber (r : Request) : decode r =
    if r.header.toNat = 0x2000 then .rdCtrl
    else if r.header.toNat = 0xA000 then .wrCtrl (r.wdata.getLsbD 0) (r.wdata.getLsbD 1) (r.wdata.getLsbD 2)
    else if r.header.toNat = 0x2004 then .rdStatus
    else if r.header.toNat = 0x2008 then .rdThresh
    else if r.header.toNat = 0x200C then .rdSum
    else if r.header.toNat = 0x2010 then .rdData
    else if r.header.toNat = 0x2014 then .rdChk
    else if r.header.toNat = 0x2018 then .rdReading
    else if r.header.toNat = 0x201C then .rdConfig
    else if r.header.toNat / 512 * 512 + r.header.toNat % 4 = 0x2400 ∧ r.header.toNat / 4 % 128 ≤ 81 then
      .rdPt (ptIndexOf r.header)
    else if r.header.toNat / 512 * 512 + r.header.toNat % 4 = 0xA400 ∧ r.header.toNat / 4 % 128 ≤ 81 then
      .wrPt (ptIndexOf r.header) r.wdata
    else .busError r := by
  simp only [decode, rowRdCtrl, rowWrCtrl, rowRdStatus, rowRdThresh, rowRdSum, rowRdData, rowRdChk, rowRdReading,
    rowRdConfig, rowRdPt, rowWrPt, Bool.and_eq_true, hits_full_mask, hits_ptMask, ptIndexLegal, decide_eq_true_eq,
    ptIndexOf_toNat]
  rfl

/-- Legality (R73) in terms of the header's number. -/
theorem legal_iff_byNumber (h : Header) : h.legal = true ↔
    h.toNat / 0x4000 % 2 = 0 ∧ h.toNat / 0x1000 % 4 = 2 ∧ h.toNat % 4 = 0 ∧
      (h.toNat % 0x1000 ≤ 0x01C ∨ (0x400 ≤ h.toNat % 0x1000 ∧ h.toNat % 0x1000 ≤ 0x544)) ∧
      (h.toNat / 0x8000 = 0 ∨ h.toNat % 0x1000 = 0 ∨ (0x400 ≤ h.toNat % 0x1000 ∧ h.toNat % 0x1000 ≤ 0x544)) := by
  have hn := h.isLt
  have h14 : h.getLsbD 14 = false ↔ h.toNat / 0x4000 % 2 = 0 := by
    simp [BitVec.getLsbD, Nat.testBit_eq_decide_div_mod_eq]
  have h15 : h.getLsbD 15 = false ↔ h.toNat / 0x8000 = 0 := by
    simp [BitVec.getLsbD, Nat.testBit_eq_decide_div_mod_eq]
    omega
  have hs : h.extractLsb' 12 2 = 0b10 ↔ h.toNat / 0x1000 % 4 = 2 := by
    rw [← BitVec.toNat_inj]; simp [BitVec.extractLsb'_toNat, Nat.shiftRight_eq_div_pow]
  have ha : (h.extractLsb' 0 12).toNat = h.toNat % 0x1000 := by simp
  simp only [Header.legal, Header.rsv, Header.size, Header.we, Header.addr, Addr.mapped, Addr.aligned, Addr.writable,
    Addr.inPulseTrain, ha, Bool.and_eq_true, Bool.or_eq_true, Bool.not_eq_true', h14, h15, hs, beq_iff_eq,
    decide_eq_true_eq]
  have : h.toNat % 0x1000 % 4 = h.toNat % 4 := by omega
  rw [this]
  tauto

/-- BUS_ERROR is decoded exactly from an illegal header (R73, R74). -/
theorem decode_isBusError_iff (r : Request) : decode r = .busError r ↔ r.header.legal = false := by
  have hn := r.header.isLt
  have hd := decode_eq_byNumber r
  rw [← Bool.not_eq_true, legal_iff_byNumber]
  by_cases h0 : r.header.toNat = 0x2000
  · rw [if_pos h0] at hd
    exact ⟨fun e => absurd (hd.symm.trans e) (by simp), fun e => absurd e (by omega)⟩
  rw [if_neg h0] at hd
  by_cases h1 : r.header.toNat = 0xA000
  · rw [if_pos h1] at hd
    exact ⟨fun e => absurd (hd.symm.trans e) (by simp), fun e => absurd e (by omega)⟩
  rw [if_neg h1] at hd
  by_cases h2 : r.header.toNat = 0x2004
  · rw [if_pos h2] at hd
    exact ⟨fun e => absurd (hd.symm.trans e) (by simp), fun e => absurd e (by omega)⟩
  rw [if_neg h2] at hd
  by_cases h3 : r.header.toNat = 0x2008
  · rw [if_pos h3] at hd
    exact ⟨fun e => absurd (hd.symm.trans e) (by simp), fun e => absurd e (by omega)⟩
  rw [if_neg h3] at hd
  by_cases h4 : r.header.toNat = 0x200C
  · rw [if_pos h4] at hd
    exact ⟨fun e => absurd (hd.symm.trans e) (by simp), fun e => absurd e (by omega)⟩
  rw [if_neg h4] at hd
  by_cases h5 : r.header.toNat = 0x2010
  · rw [if_pos h5] at hd
    exact ⟨fun e => absurd (hd.symm.trans e) (by simp), fun e => absurd e (by omega)⟩
  rw [if_neg h5] at hd
  by_cases h6 : r.header.toNat = 0x2014
  · rw [if_pos h6] at hd
    exact ⟨fun e => absurd (hd.symm.trans e) (by simp), fun e => absurd e (by omega)⟩
  rw [if_neg h6] at hd
  by_cases h7 : r.header.toNat = 0x2018
  · rw [if_pos h7] at hd
    exact ⟨fun e => absurd (hd.symm.trans e) (by simp), fun e => absurd e (by omega)⟩
  rw [if_neg h7] at hd
  by_cases h8 : r.header.toNat = 0x201C
  · rw [if_pos h8] at hd
    exact ⟨fun e => absurd (hd.symm.trans e) (by simp), fun e => absurd e (by omega)⟩
  rw [if_neg h8] at hd
  by_cases h9 : r.header.toNat / 512 * 512 + r.header.toNat % 4 = 0x2400 ∧ r.header.toNat / 4 % 128 ≤ 81
  · rw [if_pos h9] at hd
    exact ⟨fun e => absurd (hd.symm.trans e) (by simp), fun e => absurd e (by omega)⟩
  rw [if_neg h9] at hd
  by_cases h10 : r.header.toNat / 512 * 512 + r.header.toNat % 4 = 0xA400 ∧ r.header.toNat / 4 % 128 ≤ 81
  · rw [if_pos h10] at hd
    exact ⟨fun e => absurd (hd.symm.trans e) (by simp), fun e => absurd e (by omega)⟩
  rw [if_neg h10] at hd
  exact ⟨fun _ => by omega, fun _ => hd⟩

/-- Every transaction a request can be, with its header (R73, R74). -/
theorem decode_inversion (r : Request) :
    (r.header = 0x2000 ∧ decode r = .rdCtrl) ∨
    (r.header = 0xA000 ∧ decode r = .wrCtrl (r.wdata.getLsbD 0) (r.wdata.getLsbD 1) (r.wdata.getLsbD 2)) ∨
    (r.header = 0x2004 ∧ decode r = .rdStatus) ∨
    (r.header = 0x2008 ∧ decode r = .rdThresh) ∨
    (r.header = 0x200C ∧ decode r = .rdSum) ∨
    (r.header = 0x2010 ∧ decode r = .rdData) ∨
    (r.header = 0x2014 ∧ decode r = .rdChk) ∨
    (r.header = 0x2018 ∧ decode r = .rdReading) ∨
    (r.header = 0x201C ∧ decode r = .rdConfig) ∨
    ((ptIndexOf r.header).toNat ≤ 81 ∧ r.header.toNat = 0x2400 + 4 * (ptIndexOf r.header).toNat ∧
      decode r = .rdPt (ptIndexOf r.header)) ∨
    ((ptIndexOf r.header).toNat ≤ 81 ∧ r.header.toNat = 0xA400 + 4 * (ptIndexOf r.header).toNat ∧
      decode r = .wrPt (ptIndexOf r.header) r.wdata) ∨
    (r.header.legal = false ∧ decode r = .busError r) := by
  have hn := r.header.isLt
  have hi := ptIndexOf_toNat r.header
  have hb := decode_isBusError_iff r
  have hd := decode_eq_byNumber r
  by_cases h : r.header.toNat = 0x2000
  · rw [if_pos h] at hd
    exact .inl ⟨BitVec.eq_of_toNat_eq h, hd⟩
  rw [if_neg h] at hd
  refine .inr ?_
  clear h
  by_cases h : r.header.toNat = 0xA000
  · rw [if_pos h] at hd
    exact .inl ⟨BitVec.eq_of_toNat_eq h, hd⟩
  rw [if_neg h] at hd
  refine .inr ?_
  clear h
  by_cases h : r.header.toNat = 0x2004
  · rw [if_pos h] at hd
    exact .inl ⟨BitVec.eq_of_toNat_eq h, hd⟩
  rw [if_neg h] at hd
  refine .inr ?_
  clear h
  by_cases h : r.header.toNat = 0x2008
  · rw [if_pos h] at hd
    exact .inl ⟨BitVec.eq_of_toNat_eq h, hd⟩
  rw [if_neg h] at hd
  refine .inr ?_
  clear h
  by_cases h : r.header.toNat = 0x200C
  · rw [if_pos h] at hd
    exact .inl ⟨BitVec.eq_of_toNat_eq h, hd⟩
  rw [if_neg h] at hd
  refine .inr ?_
  clear h
  by_cases h : r.header.toNat = 0x2010
  · rw [if_pos h] at hd
    exact .inl ⟨BitVec.eq_of_toNat_eq h, hd⟩
  rw [if_neg h] at hd
  refine .inr ?_
  clear h
  by_cases h : r.header.toNat = 0x2014
  · rw [if_pos h] at hd
    exact .inl ⟨BitVec.eq_of_toNat_eq h, hd⟩
  rw [if_neg h] at hd
  refine .inr ?_
  clear h
  by_cases h : r.header.toNat = 0x2018
  · rw [if_pos h] at hd
    exact .inl ⟨BitVec.eq_of_toNat_eq h, hd⟩
  rw [if_neg h] at hd
  refine .inr ?_
  clear h
  by_cases h : r.header.toNat = 0x201C
  · rw [if_pos h] at hd
    exact .inl ⟨BitVec.eq_of_toNat_eq h, hd⟩
  rw [if_neg h] at hd
  refine .inr ?_
  clear h
  by_cases h : r.header.toNat / 512 * 512 + r.header.toNat % 4 = 0x2400 ∧ r.header.toNat / 4 % 128 ≤ 81
  · rw [if_pos h] at hd
    exact .inl ⟨by omega, by omega, hd⟩
  rw [if_neg h] at hd
  refine .inr ?_
  clear h
  by_cases h : r.header.toNat / 512 * 512 + r.header.toNat % 4 = 0xA400 ∧ r.header.toNat / 4 % 128 ≤ 81
  · rw [if_pos h] at hd
    exact .inl ⟨by omega, by omega, hd⟩
  rw [if_neg h] at hd
  exact .inr ⟨hb.mp hd, hd⟩

/-- The decoded instruction is always a row of the table (R73, R74). -/
theorem decode_wellFormed (r : Request) : (decode r).wellFormed = true := by
  obtain h | h | h | h | h | h | h | h | h | h | h | h := decode_inversion r
  all_goals obtain ⟨h1, h2⟩ := h
  all_goals first | (obtain ⟨_, h2⟩ := h2; rw [h2]; simp [Instr.wellFormed, PtIndex.legal, h1]) | rw [h2]; simp [Instr.wellFormed, h1]

/-- A request never decodes to an engine step (R77). -/
theorem decode_not_engineStep (r : Request) : (decode r).isEngineStep = false := by
  obtain h | h | h | h | h | h | h | h | h | h | h | h := decode_inversion r
  all_goals obtain ⟨_, h2⟩ := h
  all_goals first | rw [h2]; rfl | (obtain ⟨_, h2⟩ := h2; rw [h2]; rfl)

end Sys2Proof
end

