-- ==== Sys2Proof/Laws/State.lean ====
section
/-! SUPPORT. One lemma per field per named update of State and of Status, each true by rfl, so that no later proof unfolds a
record update. -/

namespace Sys2Proof.Machine

open Sys2Proof

/-! ## The response -/

@[simp] theorem State.respond_params (resp : Resp) (rdata : Word) (s : State) :
    (s.respond resp rdata).params = s.params := rfl
@[simp] theorem State.respond_pt (resp : Resp) (rdata : Word) (s : State) :
    (s.respond resp rdata).pt = s.pt := rfl
@[simp] theorem State.respond_sum (resp : Resp) (rdata : Word) (s : State) :
    (s.respond resp rdata).sum = s.sum := rfl
@[simp] theorem State.respond_thresh (resp : Resp) (rdata : Word) (s : State) :
    (s.respond resp rdata).thresh = s.thresh := rfl
@[simp] theorem State.respond_data (resp : Resp) (rdata : Word) (s : State) :
    (s.respond resp rdata).data = s.data := rfl
@[simp] theorem State.respond_csum (resp : Resp) (rdata : Word) (s : State) :
    (s.respond resp rdata).csum = s.csum := rfl
@[simp] theorem State.respond_hum (resp : Resp) (rdata : Word) (s : State) :
    (s.respond resp rdata).hum = s.hum := rfl
@[simp] theorem State.respond_temp (resp : Resp) (rdata : Word) (s : State) :
    (s.respond resp rdata).temp = s.temp := rfl
@[simp] theorem State.respond_status (resp : Resp) (rdata : Word) (s : State) :
    (s.respond resp rdata).status = s.status := rfl
@[simp] theorem State.respond_schedule (resp : Resp) (rdata : Word) (s : State) :
    (s.respond resp rdata).schedule = s.schedule := rfl
@[simp] theorem State.respond_responses (resp : Resp) (rdata : Word) (s : State) :
    (s.respond resp rdata).responses = ⟨resp, rdata⟩ :: s.responses := rfl

/-! ## STATUS alone -/

@[simp] theorem State.mapStatus_params (f : Status → Status) (s : State) :
    (s.mapStatus f).params = s.params := rfl
@[simp] theorem State.mapStatus_pt (f : Status → Status) (s : State) :
    (s.mapStatus f).pt = s.pt := rfl
@[simp] theorem State.mapStatus_sum (f : Status → Status) (s : State) :
    (s.mapStatus f).sum = s.sum := rfl
@[simp] theorem State.mapStatus_thresh (f : Status → Status) (s : State) :
    (s.mapStatus f).thresh = s.thresh := rfl
@[simp] theorem State.mapStatus_data (f : Status → Status) (s : State) :
    (s.mapStatus f).data = s.data := rfl
@[simp] theorem State.mapStatus_csum (f : Status → Status) (s : State) :
    (s.mapStatus f).csum = s.csum := rfl
@[simp] theorem State.mapStatus_hum (f : Status → Status) (s : State) :
    (s.mapStatus f).hum = s.hum := rfl
@[simp] theorem State.mapStatus_temp (f : Status → Status) (s : State) :
    (s.mapStatus f).temp = s.temp := rfl
@[simp] theorem State.mapStatus_status (f : Status → Status) (s : State) :
    (s.mapStatus f).status = f s.status := rfl
@[simp] theorem State.mapStatus_schedule (f : Status → Status) (s : State) :
    (s.mapStatus f).schedule = s.schedule := rfl
@[simp] theorem State.mapStatus_responses (f : Status → Status) (s : State) :
    (s.mapStatus f).responses = s.responses := rfl

/-! ## The access error -/

@[simp] theorem State.accessError_params (s : State) :
    (s.accessError).params = s.params := rfl
@[simp] theorem State.accessError_pt (s : State) :
    (s.accessError).pt = s.pt := rfl
@[simp] theorem State.accessError_sum (s : State) :
    (s.accessError).sum = s.sum := rfl
@[simp] theorem State.accessError_thresh (s : State) :
    (s.accessError).thresh = s.thresh := rfl
@[simp] theorem State.accessError_data (s : State) :
    (s.accessError).data = s.data := rfl
@[simp] theorem State.accessError_csum (s : State) :
    (s.accessError).csum = s.csum := rfl
@[simp] theorem State.accessError_hum (s : State) :
    (s.accessError).hum = s.hum := rfl
@[simp] theorem State.accessError_temp (s : State) :
    (s.accessError).temp = s.temp := rfl
@[simp] theorem State.accessError_status (s : State) :
    (s.accessError).status = s.status.accessRefused := rfl
@[simp] theorem State.accessError_schedule (s : State) :
    (s.accessError).schedule = s.schedule := rfl
@[simp] theorem State.accessError_responses (s : State) :
    (s.accessError).responses = ⟨.err, 0⟩ :: s.responses := rfl

/-! ## One PT entry -/

@[simp] theorem State.setPt_params (i : Nat) (w : Word) (s : State) :
    (s.setPt i w).params = s.params := rfl
@[simp] theorem State.setPt_pt (i : Nat) (w : Word) (s : State) :
    (s.setPt i w).pt = s.pt.setIfInBounds i w := rfl
@[simp] theorem State.setPt_sum (i : Nat) (w : Word) (s : State) :
    (s.setPt i w).sum = s.sum := rfl
@[simp] theorem State.setPt_thresh (i : Nat) (w : Word) (s : State) :
    (s.setPt i w).thresh = s.thresh := rfl
@[simp] theorem State.setPt_data (i : Nat) (w : Word) (s : State) :
    (s.setPt i w).data = s.data := rfl
@[simp] theorem State.setPt_csum (i : Nat) (w : Word) (s : State) :
    (s.setPt i w).csum = s.csum := rfl
@[simp] theorem State.setPt_hum (i : Nat) (w : Word) (s : State) :
    (s.setPt i w).hum = s.hum := rfl
@[simp] theorem State.setPt_temp (i : Nat) (w : Word) (s : State) :
    (s.setPt i w).temp = s.temp := rfl
@[simp] theorem State.setPt_status (i : Nat) (w : Word) (s : State) :
    (s.setPt i w).status = s.status := rfl
@[simp] theorem State.setPt_schedule (i : Nat) (w : Word) (s : State) :
    (s.setPt i w).schedule = s.schedule := rfl
@[simp] theorem State.setPt_responses (i : Nat) (w : Word) (s : State) :
    (s.setPt i w).responses = s.responses := rfl

/-! ## CLRERR -/

@[simp] theorem State.clearErrors_params (s : State) :
    (s.clearErrors).params = s.params := rfl
@[simp] theorem State.clearErrors_pt (s : State) :
    (s.clearErrors).pt = s.pt := rfl
@[simp] theorem State.clearErrors_sum (s : State) :
    (s.clearErrors).sum = s.sum := rfl
@[simp] theorem State.clearErrors_thresh (s : State) :
    (s.clearErrors).thresh = s.thresh := rfl
@[simp] theorem State.clearErrors_data (s : State) :
    (s.clearErrors).data = s.data := rfl
@[simp] theorem State.clearErrors_csum (s : State) :
    (s.clearErrors).csum = s.csum := rfl
@[simp] theorem State.clearErrors_hum (s : State) :
    (s.clearErrors).hum = s.hum := rfl
@[simp] theorem State.clearErrors_temp (s : State) :
    (s.clearErrors).temp = s.temp := rfl
@[simp] theorem State.clearErrors_status (s : State) :
    (s.clearErrors).status = s.status.errorsCleared := rfl
@[simp] theorem State.clearErrors_schedule (s : State) :
    (s.clearErrors).schedule = s.schedule := rfl
@[simp] theorem State.clearErrors_responses (s : State) :
    (s.clearErrors).responses = s.responses := rfl

/-! ## Reset -/

@[simp] theorem State.resetRegisters_params (s : State) :
    (s.resetRegisters).params = s.params := rfl
@[simp] theorem State.resetRegisters_pt (s : State) :
    (s.resetRegisters).pt = Vector.replicate 82 0 := rfl
@[simp] theorem State.resetRegisters_sum (s : State) :
    (s.resetRegisters).sum = 0 := rfl
@[simp] theorem State.resetRegisters_thresh (s : State) :
    (s.resetRegisters).thresh = 0 := rfl
@[simp] theorem State.resetRegisters_data (s : State) :
    (s.resetRegisters).data = Vector.replicate 5 0 := rfl
@[simp] theorem State.resetRegisters_csum (s : State) :
    (s.resetRegisters).csum = 0 := rfl
@[simp] theorem State.resetRegisters_hum (s : State) :
    (s.resetRegisters).hum = 0 := rfl
@[simp] theorem State.resetRegisters_temp (s : State) :
    (s.resetRegisters).temp = 0 := rfl
@[simp] theorem State.resetRegisters_status (s : State) :
    (s.resetRegisters).status = Status.reset := rfl
@[simp] theorem State.resetRegisters_schedule (s : State) :
    (s.resetRegisters).schedule = s.schedule := rfl
@[simp] theorem State.resetRegisters_responses (s : State) :
    (s.resetRegisters).responses = s.responses := rfl

/-! ## The threshold stage -/

@[simp] theorem State.thresholdStage_params (s : State) :
    (s.thresholdStage).params = s.params := rfl
@[simp] theorem State.thresholdStage_pt (s : State) :
    (s.thresholdStage).pt = s.pt := rfl
@[simp] theorem State.thresholdStage_sum (s : State) :
    (s.thresholdStage).sum = BitVec.ofNat 32 (lowSum s.pt) := rfl
@[simp] theorem State.thresholdStage_thresh (s : State) :
    (s.thresholdStage).thresh = BitVec.ofNat 32 (quotient s.params (lowSum s.pt)) := rfl
@[simp] theorem State.thresholdStage_data (s : State) :
    (s.thresholdStage).data = s.data := rfl
@[simp] theorem State.thresholdStage_csum (s : State) :
    (s.thresholdStage).csum = s.csum := rfl
@[simp] theorem State.thresholdStage_hum (s : State) :
    (s.thresholdStage).hum = s.hum := rfl
@[simp] theorem State.thresholdStage_temp (s : State) :
    (s.thresholdStage).temp = s.temp := rfl
@[simp] theorem State.thresholdStage_status (s : State) :
    (s.thresholdStage).status = s.status := rfl
@[simp] theorem State.thresholdStage_schedule (s : State) :
    (s.thresholdStage).schedule = s.schedule := rfl
@[simp] theorem State.thresholdStage_responses (s : State) :
    (s.thresholdStage).responses = s.responses := rfl

/-! ## The classifier stage -/

@[simp] theorem State.classifyStage_params (s : State) :
    (s.classifyStage).params = s.params := rfl
@[simp] theorem State.classifyStage_pt (s : State) :
    (s.classifyStage).pt = s.pt := rfl
@[simp] theorem State.classifyStage_sum (s : State) :
    (s.classifyStage).sum = s.sum := rfl
@[simp] theorem State.classifyStage_thresh (s : State) :
    (s.classifyStage).thresh = s.thresh := rfl
@[simp] theorem State.classifyStage_data (s : State) :
    (s.classifyStage).data = packBytes (classifyBit s.params (lowSum s.pt) s.pt) := rfl
@[simp] theorem State.classifyStage_csum (s : State) :
    (s.classifyStage).csum = s.csum := rfl
@[simp] theorem State.classifyStage_hum (s : State) :
    (s.classifyStage).hum = s.hum := rfl
@[simp] theorem State.classifyStage_temp (s : State) :
    (s.classifyStage).temp = s.temp := rfl
@[simp] theorem State.classifyStage_status (s : State) :
    (s.classifyStage).status = s.status := rfl
@[simp] theorem State.classifyStage_schedule (s : State) :
    (s.classifyStage).schedule = s.schedule := rfl
@[simp] theorem State.classifyStage_responses (s : State) :
    (s.classifyStage).responses = s.responses := rfl

/-! ## The validator stage -/

@[simp] theorem State.validateStage_params (s : State) :
    (s.validateStage).params = s.params := rfl
@[simp] theorem State.validateStage_pt (s : State) :
    (s.validateStage).pt = s.pt := rfl
@[simp] theorem State.validateStage_sum (s : State) :
    (s.validateStage).sum = s.sum := rfl
@[simp] theorem State.validateStage_thresh (s : State) :
    (s.validateStage).thresh = s.thresh := rfl
@[simp] theorem State.validateStage_data (s : State) :
    (s.validateStage).data = s.data := rfl
@[simp] theorem State.validateStage_csum (s : State) :
    (s.validateStage).csum = checksum s.data := rfl
@[simp] theorem State.validateStage_hum (s : State) :
    (s.validateStage).hum = (if checksumOk s.data then s.data[0] else 0) := rfl
@[simp] theorem State.validateStage_temp (s : State) :
    (s.validateStage).temp = (if checksumOk s.data then s.data[2] else 0) := rfl
@[simp] theorem State.validateStage_status (s : State) :
    (s.validateStage).status = s.status.validated (checksumOk s.data) := rfl
@[simp] theorem State.validateStage_schedule (s : State) :
    (s.validateStage).schedule = s.schedule := rfl
@[simp] theorem State.validateStage_responses (s : State) :
    (s.validateStage).responses = s.responses := rfl

/-! ## The reset state -/

@[simp] theorem State.resetOf_params (p : Params) : (State.resetOf p).params = p := rfl
@[simp] theorem State.resetOf_pt (p : Params) : (State.resetOf p).pt = Vector.replicate 82 0 := rfl
@[simp] theorem State.resetOf_sum (p : Params) : (State.resetOf p).sum = 0 := rfl
@[simp] theorem State.resetOf_thresh (p : Params) : (State.resetOf p).thresh = 0 := rfl
@[simp] theorem State.resetOf_data (p : Params) : (State.resetOf p).data = Vector.replicate 5 0 := rfl
@[simp] theorem State.resetOf_csum (p : Params) : (State.resetOf p).csum = 0 := rfl
@[simp] theorem State.resetOf_hum (p : Params) : (State.resetOf p).hum = 0 := rfl
@[simp] theorem State.resetOf_temp (p : Params) : (State.resetOf p).temp = 0 := rfl
@[simp] theorem State.resetOf_status (p : Params) : (State.resetOf p).status = Status.reset := rfl
@[simp] theorem State.resetOf_schedule (p : Params) : (State.resetOf p).schedule = [] := rfl
@[simp] theorem State.resetOf_responses (p : Params) : (State.resetOf p).responses = [] := rfl

/-! ## STATUS -/

@[simp] theorem Status.started_busy (st : Status) : (st.started).busy = true := rfl
@[simp] theorem Status.started_done (st : Status) : (st.started).done = false := rfl
@[simp] theorem Status.started_valid (st : Status) : (st.started).valid = false := rfl
@[simp] theorem Status.started_mismatch (st : Status) : (st.started).mismatch = false := rfl
@[simp] theorem Status.started_werr (st : Status) : (st.started).werr = st.werr := rfl
@[simp] theorem Status.started_aerr (st : Status) : (st.started).aerr = st.aerr := rfl

@[simp] theorem Status.writeRefused_busy (st : Status) : (st.writeRefused).busy = st.busy := rfl
@[simp] theorem Status.writeRefused_done (st : Status) : (st.writeRefused).done = st.done := rfl
@[simp] theorem Status.writeRefused_valid (st : Status) : (st.writeRefused).valid = st.valid := rfl
@[simp] theorem Status.writeRefused_mismatch (st : Status) : (st.writeRefused).mismatch = st.mismatch := rfl
@[simp] theorem Status.writeRefused_werr (st : Status) : (st.writeRefused).werr = true := rfl
@[simp] theorem Status.writeRefused_aerr (st : Status) : (st.writeRefused).aerr = st.aerr := rfl

@[simp] theorem Status.accessRefused_busy (st : Status) : (st.accessRefused).busy = st.busy := rfl
@[simp] theorem Status.accessRefused_done (st : Status) : (st.accessRefused).done = st.done := rfl
@[simp] theorem Status.accessRefused_valid (st : Status) : (st.accessRefused).valid = st.valid := rfl
@[simp] theorem Status.accessRefused_mismatch (st : Status) : (st.accessRefused).mismatch = st.mismatch := rfl
@[simp] theorem Status.accessRefused_werr (st : Status) : (st.accessRefused).werr = st.werr := rfl
@[simp] theorem Status.accessRefused_aerr (st : Status) : (st.accessRefused).aerr = true := rfl

@[simp] theorem Status.errorsCleared_busy (st : Status) : (st.errorsCleared).busy = st.busy := rfl
@[simp] theorem Status.errorsCleared_done (st : Status) : (st.errorsCleared).done = st.done := rfl
@[simp] theorem Status.errorsCleared_valid (st : Status) : (st.errorsCleared).valid = st.valid := rfl
@[simp] theorem Status.errorsCleared_mismatch (st : Status) : (st.errorsCleared).mismatch = st.mismatch := rfl
@[simp] theorem Status.errorsCleared_werr (st : Status) : (st.errorsCleared).werr = false := rfl
@[simp] theorem Status.errorsCleared_aerr (st : Status) : (st.errorsCleared).aerr = false := rfl

@[simp] theorem Status.validated_busy (ok : Bool) (st : Status) : (st.validated ok).busy = st.busy := rfl
@[simp] theorem Status.validated_done (ok : Bool) (st : Status) : (st.validated ok).done = st.done := rfl
@[simp] theorem Status.validated_valid (ok : Bool) (st : Status) : (st.validated ok).valid = ok := rfl
@[simp] theorem Status.validated_mismatch (ok : Bool) (st : Status) : (st.validated ok).mismatch = !ok := rfl
@[simp] theorem Status.validated_werr (ok : Bool) (st : Status) : (st.validated ok).werr = st.werr := rfl
@[simp] theorem Status.validated_aerr (ok : Bool) (st : Status) : (st.validated ok).aerr = st.aerr := rfl

@[simp] theorem Status.finished_busy (st : Status) : (st.finished).busy = false := rfl
@[simp] theorem Status.finished_done (st : Status) : (st.finished).done = true := rfl
@[simp] theorem Status.finished_valid (st : Status) : (st.finished).valid = st.valid := rfl
@[simp] theorem Status.finished_mismatch (st : Status) : (st.finished).mismatch = st.mismatch := rfl
@[simp] theorem Status.finished_werr (st : Status) : (st.finished).werr = st.werr := rfl
@[simp] theorem Status.finished_aerr (st : Status) : (st.finished).aerr = st.aerr := rfl

@[simp] theorem Status.reset_busy : Status.reset.busy = false := rfl
@[simp] theorem Status.reset_done : Status.reset.done = false := rfl
@[simp] theorem Status.reset_valid : Status.reset.valid = false := rfl
@[simp] theorem Status.reset_mismatch : Status.reset.mismatch = false := rfl
@[simp] theorem Status.reset_werr : Status.reset.werr = false := rfl
@[simp] theorem Status.reset_aerr : Status.reset.aerr = false := rfl

end Sys2Proof.Machine
end

