-- ==== Sys2Proof/Laws/Ops.lean ====
section
/-! SUPPORT. What each shared operation can do, said once. -/

namespace Sys2Proof.Machine

open Sys2Proof

/-! ## Operands -/

/-- The stored value is WDATA modulo `2 ^ CNT_W` (R72), for every width up to the word's. -/
theorem ptValue_eq_ofNat (p : Params) (w : Word) : ptValue p w = BitVec.ofNat 32 (w.toNat % 2 ^ p.cntW) := by
  apply BitVec.eq_of_toNat_eq
  simp [ptValue]

theorem ptValue_toNat (p : Params) (w : Word) : (ptValue p w).toNat = w.toNat % 2 ^ p.cntW := by
  rw [ptValue_eq_ofNat, BitVec.toNat_ofNat]
  exact Nat.mod_eq_of_lt (lt_of_le_of_lt (Nat.mod_le _ _) w.isLt)

theorem ptValue_lt (p : Params) (w : Word) : (ptValue p w).toNat < 2 ^ p.cntW := by
  rw [ptValue_toNat]
  exact Nat.mod_lt _ (Nat.two_pow_pos _)

theorem counter_eq_getElem (pt : PulseTrain) (i : Nat) (h : i < 82) : counter pt i = pt[i].toNat := by
  simp [counter, h]

/-! ## Commands -/

theorem State.startDecode_of_idle (s : State) (h : s.status.busy = false) :
    s.startDecode = s.mapStatus Status.started := by
  simp [State.startDecode, h]

theorem State.startDecode_of_busy (s : State) (h : s.status.busy = true) :
    s.startDecode = s.mapStatus Status.writeRefused := by
  simp [State.startDecode, h]

theorem State.storeCounter_of_idle (i : Nat) (w : Word) (s : State) (h : s.status.busy = false) :
    s.storeCounter i w = s.setPt i (ptValue s.params w) := by
  simp [State.storeCounter, h]

theorem State.storeCounter_of_busy (i : Nat) (w : Word) (s : State) (h : s.status.busy = true) :
    s.storeCounter i w = s.mapStatus Status.writeRefused := by
  simp [State.storeCounter, h]

/-- The STATUS a CTRL write without SRST leaves, flag by flag (R163 to R165). -/
def Status.afterCommands (start clrerr : Bool) (st : Status) : Status :=
  { busy := st.busy || start
    done := st.done && (st.busy || !start)
    valid := st.valid && (st.busy || !start)
    mismatch := st.mismatch && (st.busy || !start)
    werr := (st.werr && !clrerr) || (start && st.busy)
    aerr := st.aerr && !clrerr }

/-- A CTRL write without SRST changes STATUS alone. -/
theorem State.ctrlCommands_without_srst (start clrerr : Bool) (s : State) :
    s.ctrlCommands start false clrerr = s.mapStatus (Status.afterCommands start clrerr) := by
  obtain ⟨_, _, _, _, _, _, _, _, ⟨busy, done, valid, mismatch, werr, aerr⟩, _, _⟩ := s
  cases start <;> cases clrerr <;> cases busy <;>
    simp [State.ctrlCommands, State.clearErrors, State.startDecode, State.mapStatus, Status.afterCommands,
      Status.started, Status.errorsCleared, Status.writeRefused]

/-- A CTRL write with SRST is a reset of the registers, whatever its other bits. -/
theorem State.ctrlCommands_with_srst (start clrerr : Bool) (s : State) :
    s.ctrlCommands start true clrerr = s.resetRegisters := rfl

end Sys2Proof.Machine
end

