-- ==== Sys2Proof/Laws/Engine.lean ====
section
/-! SUPPORT. What the engine computes: the sum and its bounds (R23, R24, R100), the closed form of the packing (R123, R125),
the checksum (R140) and the completion as a whole (R172). -/

namespace Sys2Proof.Machine

open Sys2Proof

/-! ## Threshold -/

theorem lowSumUpTo_eq_sum (pt : PulseTrain) (n : Nat) :
    lowSumUpTo pt n = ∑ k ∈ Finset.Icc 1 n, counter pt (2 * k) := by
  induction n with
  | zero => simp [lowSumUpTo]
  | succ n ih => rw [lowSumUpTo, ih, Finset.sum_Icc_succ_top (by omega)]

/-- The loop of R100 computes the mathematical sum. -/
theorem State.lowSum_eq_dataLowSum (s : State) : lowSum s.pt = s.dataLowSum := lowSumUpTo_eq_sum s.pt 40

theorem lowSumUpTo_le (pt : PulseTrain) (b n : Nat) (h : ∀ i : Fin 82, pt[i].toNat ≤ b) (hn : n ≤ 40) :
    lowSumUpTo pt n ≤ n * b := by
  induction n with
  | zero => simp [lowSumUpTo]
  | succ n ih =>
    have h1 := ih (by omega)
    have h2 : counter pt (2 * (n + 1)) ≤ b := by
      rw [counter_eq_getElem pt _ (by omega)]
      exact h ⟨2 * (n + 1), by omega⟩
    have h3 : (n + 1) * b = n * b + b := Nat.succ_mul n b
    rw [lowSumUpTo]
    omega

/-- The largest sum is `40 × (2 ^ CNT_W − 1)` (R23, R100). -/
theorem State.lowSum_le (s : State) (h : s.Widths) : lowSum s.pt ≤ 40 * (2 ^ s.params.cntW - 1) :=
  lowSumUpTo_le s.pt _ 40 (fun i => Nat.le_sub_one_of_lt (h.1 i)) (le_refl 40)

/-- The sum fits in SUM_W bits (R23). -/
theorem State.lowSum_lt (s : State) (h : s.Widths) : lowSum s.pt < 2 ^ s.params.sumW := by
  have h1 := s.lowSum_le h
  have h2 : 1 ≤ 2 ^ s.params.cntW := Nat.one_le_two_pow
  rw [Params.sumW, Nat.pow_add]
  omega

theorem sumW_le_wordWidth (p : Params) (h : p.Legal) : 2 ^ p.sumW ≤ 2 ^ 32 :=
  Nat.pow_le_pow_right (by decide) (by have := h.2; unfold Params.sumW; omega)

theorem divisor_ge_forty (d : Divisor) : 40 ≤ d.toNat := by cases d <;> decide

/-- The quotient fits in CNT_W bits (R24). -/
theorem State.quotient_lt (s : State) (h : s.Widths) : quotient s.params (lowSum s.pt) < 2 ^ s.params.cntW := by
  have h1 := s.lowSum_le h
  have h2 : 1 ≤ 2 ^ s.params.cntW := Nat.one_le_two_pow
  have h3 : lowSum s.pt < 2 ^ s.params.cntW * 40 := by omega
  exact Nat.div_lt_of_lt_mul (lt_of_lt_of_le h3 (by
    rw [Nat.mul_comm]; exact Nat.mul_le_mul_right _ (divisor_ge_forty _)))

theorem State.thresholdStage_sum_toNat (s : State) (hp : s.params.Legal) (h : s.Widths) :
    s.thresholdStage.sum.toNat = lowSum s.pt := by
  rw [State.thresholdStage_sum, BitVec.toNat_ofNat]
  exact Nat.mod_eq_of_lt (lt_of_lt_of_le (s.lowSum_lt h) (sumW_le_wordWidth _ hp))

theorem State.thresholdStage_thresh_toNat (s : State) (hp : s.params.Legal) (h : s.Widths) :
    s.thresholdStage.thresh.toNat = lowSum s.pt / s.params.divisor.toNat := by
  rw [State.thresholdStage_thresh, BitVec.toNat_ofNat]
  exact Nat.mod_eq_of_lt (lt_of_lt_of_le (s.quotient_lt h)
    (Nat.pow_le_pow_right (by decide) (by have := hp.2; omega)))

/-! ## Packing -/

/-- Eight shifts of one byte register, `f 0` first. -/
def shiftMany (f : Nat → Bool) (b : Byte) : Nat → Byte
  | 0 => b
  | n + 1 => shiftIn (shiftMany f b n) (f n)

theorem shiftIn_getLsbD_zero (b : Byte) (v : Bool) : (shiftIn b v).getLsbD 0 = v := by
  cases v <;> simp [shiftIn]

theorem shiftIn_getLsbD_succ (b : Byte) (v : Bool) (k : Nat) (h : k < 7) :
    (shiftIn b v).getLsbD (k + 1) = b.getLsbD k := by
  have hk : k < 8 := by omega
  have h1 : k + 1 < 8 := by omega
  cases v <;> simp [shiftIn, h1, BitVec.getLsbD_eq_getElem hk]

/-- After `n` shifts, bit `k < n` is the bit shifted in `k + 1` from last. -/
theorem shiftMany_getLsbD (f : Nat → Bool) (b : Byte) (n k : Nat) (hk : k < n) (h8 : k < 8) :
    (shiftMany f b n).getLsbD k = f (n - 1 - k) := by
  induction n generalizing k with
  | zero => omega
  | succ n ih =>
    cases k with
    | zero => rw [shiftMany, shiftIn_getLsbD_zero]; simp
    | succ k =>
      rw [shiftMany, shiftIn_getLsbD_succ _ _ _ (by omega), ih k (by omega) (by omega)]
      congr 1; omega

/-- How far the loop of R122 has got with byte `j` after `n` shifts in all: the first `8j` go to the bytes before it, the
next 8 into it. -/
theorem packUpTo_getElem (bits : Nat → Bool) (init : DataBytes) (n j : Nat) (hn : n ≤ 40) (hj : j < 5) :
    (packUpTo bits init n)[j] = shiftMany (fun m => bits (8 * j + m)) init[j] (min (n - 8 * j) 8) := by
  induction n with
  | zero => simp [packUpTo, shiftMany]
  | succ n ih =>
    have ih := ih (by omega)
    have hq : n / 8 < 5 := by omega
    simp only [packUpTo]
    by_cases hj' : n / 8 = j
    · subst hj'
      have h1 : min (n + 1 - 8 * (n / 8)) 8 = min (n - 8 * (n / 8)) 8 + 1 := by omega
      have h2 : 8 * (n / 8) + min (n - 8 * (n / 8)) 8 = n := by omega
      rw [h1, shiftMany, h2, ← ih]
      simp [hq]
    · have h1 : min (n + 1 - 8 * j) 8 = min (n - 8 * j) 8 := by omega
      rw [h1, ← ih]
      simp [hj']

/-- PACK-ORDER (R123): bit `7 − m` of byte `j` is data bit `8j + m`, whatever the byte registers held before (R125). -/
theorem packUpTo_getLsbD (bits : Nat → Bool) (init : DataBytes) (j m : Nat) (hj : j < 5) (hm : m < 8) :
    (packUpTo bits init 40)[j].getLsbD (7 - m) = bits (8 * j + m) := by
  rw [packUpTo_getElem bits init 40 j (le_refl 40) hj, show min (40 - 8 * j) 8 = 8 by omega,
    shiftMany_getLsbD _ _ _ _ (by omega) (by omega)]
  congr 1; omega

theorem packBytes_getLsbD (bits : Nat → Bool) (j m : Nat) (hj : j < 5) (hm : m < 8) :
    (packBytes bits)[j].getLsbD (7 - m) = bits (8 * j + m) := by
  unfold packBytes
  exact packUpTo_getLsbD bits _ j m hj hm

/-- The classifier's bytes are those PT encodes (R123). -/
theorem State.classifyStage_encodes (s : State) : s.PulsesEncode s.classifyStage.data := by
  intro j m
  rw [State.classifyStage_data]
  have h := packBytes_getLsbD (classifyBit s.params (lowSum s.pt) s.pt) j.val m.val j.isLt m.isLt
  rw [show (packBytes (classifyBit s.params (lowSum s.pt) s.pt))[j] =
    (packBytes (classifyBit s.params (lowSum s.pt) s.pt))[j.val] from rfl, h, classifyBit, s.lowSum_eq_dataLowSum]
  congr 2; omega

/-- Bytes are determined by their bits, most significant first. -/
theorem DataBytes.ext_of_bits (a b : DataBytes)
    (h : ∀ (j : Fin 5) (m : Fin 8), a[j].getLsbD (7 - m.val) = b[j].getLsbD (7 - m.val)) : a = b := by
  apply Vector.ext
  intro j hj
  apply BitVec.eq_of_getLsbD_eq
  intro k hk
  have := h ⟨j, hj⟩ ⟨7 - k, by omega⟩
  simpa [show 7 - (7 - k) = k by omega] using this

/-- The classifier gives exactly the bytes that PT encodes. -/
theorem State.classifyStage_data_of_encodes (s : State) (b : DataBytes) (h : s.PulsesEncode b) :
    s.classifyStage.data = b :=
  DataBytes.ext_of_bits _ _ fun j m => by rw [s.classifyStage_encodes j m, h j m]

/-! ## The completion -/

theorem checksum_toNat (d : DataBytes) :
    (checksum d).toNat = (d[0].toNat + d[1].toNat + d[2].toNat + d[3].toNat) % 256 := by
  simp [checksum]

theorem checksumOk_iff (d : DataBytes) : checksumOk d = true ↔ checksum d = d[4] := by
  simp [checksumOk]

/-- What a completion leaves, register by register (R172). -/
theorem State.completeDecode_spec (s : State) : s.completeDecode =
    { s with
      sum := s.thresholdStage.sum
      thresh := s.thresholdStage.thresh
      data := s.classifyStage.data
      csum := checksum s.classifyStage.data
      hum := if checksumOk s.classifyStage.data then s.classifyStage.data[0] else 0
      temp := if checksumOk s.classifyStage.data then s.classifyStage.data[2] else 0
      status := (s.status.validated (checksumOk s.classifyStage.data)).finished } := rfl

theorem State.whileBusy_of_busy (f : State → State) (s : State) (h : s.status.busy = true) : s.whileBusy f = f s := by
  simp [State.whileBusy, h]

theorem State.whileBusy_of_idle (f : State → State) (s : State) (h : s.status.busy = false) : s.whileBusy f = s := by
  simp [State.whileBusy, h]

end Sys2Proof.Machine
end

