-- ==== Sys2Proof/Laws/PerInstr.lean ====
section
/-! SUPPORT. Statements about each constructor of Instr as syntax, one lemma a constructor. -/

namespace Sys2Proof.Laws.EncodedHeader

open Sys2Proof

/-- A well-formed instruction's encoding, where it has one, has a legal header exactly when it is no BUS_ERROR (R73, R74). -/
def Statement (i : Instr) : Prop :=
  i.wellFormed = true → ∀ r : Request, encode i = some r → r.header.legal = !i.isBusError

/-- The number of a PT row's header: the row's match and four times the index (R73). -/
theorem ptHeader_toNat (k : Nat) (p : Header) (i : PtIndex) (hp : p.toNat = 512 * k) :
    (ptHeader ⟨p, 0xFE03⟩ i).toNat = p.toNat + 4 * i.toNat := by
  have hi := i.isLt
  have h1 : i.toNat * 4 < 2 ^ 9 := by omega
  have h2 : i.toNat % 65536 = i.toNat := by omega
  have h3 : i.toNat * 4 % 65536 = i.toNat * 4 := by omega
  simp only [ptHeader, BitVec.toNat_or, BitVec.toNat_shiftLeft, BitVec.toNat_setWidth, Nat.shiftLeft_eq, hp]
  norm_num [h2, h3]
  rw [show 512 * k = k <<< 9 by rw [Nat.shiftLeft_eq]; omega, ← Nat.shiftLeft_add_eq_or_of_lt h1]
  omega

theorem rdCtrl : Statement .rdCtrl := by
  intro _ r h
  cases h
  rfl

theorem rdStatus : Statement .rdStatus := by
  intro _ r h
  cases h
  rfl

theorem rdThresh : Statement .rdThresh := by
  intro _ r h
  cases h
  rfl

theorem rdSum : Statement .rdSum := by
  intro _ r h
  cases h
  rfl

theorem rdData : Statement .rdData := by
  intro _ r h
  cases h
  rfl

theorem rdChk : Statement .rdChk := by
  intro _ r h
  cases h
  rfl

theorem rdReading : Statement .rdReading := by
  intro _ r h
  cases h
  rfl

theorem rdConfig : Statement .rdConfig := by
  intro _ r h
  cases h
  rfl

theorem wrCtrl (start srst clrerr : Bool) : Statement (.wrCtrl start srst clrerr) := by
  intro _ r h
  cases h
  show Header.legal 0xA000 = true
  decide

theorem rdPt (i : PtIndex) : Statement (.rdPt i) := by
  intro hw r h
  cases h
  have h1 := ptHeader_toNat 18 0x2400 i (by decide)
  have h2 : i.toNat ≤ 81 := by simpa [Instr.wellFormed, PtIndex.legal] using hw
  have h3 : (0x2400 : Header).toNat = 0x2400 := by decide
  refine (legal_iff_byNumber _).mpr ?_
  rw [show ptHeader rowRdPt i = ptHeader ⟨0x2400, 0xFE03⟩ i from rfl, h1, h3]
  omega

theorem wrPt (i : PtIndex) (w : Word) : Statement (.wrPt i w) := by
  intro hw r h
  cases h
  have h1 := ptHeader_toNat 82 0xA400 i (by decide)
  have h2 : i.toNat ≤ 81 := by simpa [Instr.wellFormed, PtIndex.legal] using hw
  have h3 : (0xA400 : Header).toNat = 0xA400 := by decide
  refine (legal_iff_byNumber _).mpr ?_
  rw [show ptHeader rowWrPt i = ptHeader ⟨0xA400, 0xFE03⟩ i from rfl, h1, h3]
  omega

theorem busError (q : Request) : Statement (.busError q) := by
  intro hw r h
  cases h
  simpa [Instr.wellFormed, Instr.isBusError] using hw

theorem engThreshold : Statement .engThreshold := by
  intro _ r h
  cases h

theorem engClassify : Statement .engClassify := by
  intro _ r h
  cases h

theorem engValidate : Statement .engValidate := by
  intro _ r h
  cases h

theorem engComplete : Statement .engComplete := by
  intro _ r h
  cases h

end Sys2Proof.Laws.EncodedHeader
end

