-- ==== Sys2Proof/Laws/Step.lean ====
section
/-! SUPPORT. What a transaction, an engine turn and a step can do, said once. -/

namespace Sys2Proof.Machine

open Sys2Proof

/-- Every instruction answers a next state (R160, R206). -/
theorem exec_answers (i : Instr) (s : State) : ∃ t, exec i s = .next t := by
  cases i with
  | rdPt index => by_cases h : index.toNat ≤ 81 <;> simp [exec, execRdPt, h]
  | wrPt index wdata => by_cases h : index.toNat ≤ 81 <;> simp [exec, execWrPt, h]
  | _ => exact ⟨_, rfl⟩

/-- The four things a transaction can do to the block, each with its response. -/
theorem exec_request_inversion (r : Request) (s t : State) (h : exec (decode r) s = .next t) :
    (r.header.getLsbD 15 = false ∧ r.header.legal = true ∧ ∃ w, t = s.respond .okay w) ∨
    (∃ start srst clrerr, decode r = .wrCtrl start srst clrerr ∧
      t = (s.ctrlCommands start srst clrerr).respond .okay 0) ∨
    (∃ i w, decode r = .wrPt i w ∧ i.toNat ≤ 81 ∧ t = (s.storeCounter i.toNat w).respond .okay 0) ∨
    (r.header.legal = false ∧ decode r = .busError r ∧ t = s.accessError) := by
  obtain h1 | h1 | h1 | h1 | h1 | h1 | h1 | h1 | h1 | h1 | h1 | h1 := decode_inversion r
  case inr.inl =>
    rw [h1.2] at h
    simp only [exec, execWrCtrl, Host.Outcome.next.injEq] at h
    exact .inr (.inl ⟨_, _, _, h1.2, h.symm⟩)
  case inr.inr.inr.inr.inr.inr.inr.inr.inr.inl =>
    obtain ⟨h81, hn, hd⟩ := h1
    rw [hd] at h
    simp only [exec, execRdPt, h81, if_true, Host.Outcome.next.injEq] at h
    refine .inl ⟨?_, ?_, _, h.symm⟩
    · simp [BitVec.getLsbD, Nat.testBit_eq_decide_div_mod_eq, hn]
      omega
    · rw [legal_iff_byNumber]
      omega
  case inr.inr.inr.inr.inr.inr.inr.inr.inr.inr.inl =>
    obtain ⟨h81, hn, hd⟩ := h1
    rw [hd] at h
    simp only [exec, execWrPt, h81, if_true, Host.Outcome.next.injEq] at h
    exact .inr (.inr (.inl ⟨_, _, hd, h81, h.symm⟩))
  case inr.inr.inr.inr.inr.inr.inr.inr.inr.inr.inr =>
    obtain ⟨hl, hd⟩ := h1
    rw [hd] at h
    simp only [exec, execBusError, Host.Outcome.next.injEq] at h
    exact .inr (.inr (.inr ⟨hl, hd, h.symm⟩))
  all_goals
    obtain ⟨hh, hd⟩ := h1
    rw [hd] at h
    simp only [exec, execRdCtrl, execRdStatus, execRdThresh, execRdSum, execRdData, execRdChk, execRdReading,
      execRdConfig, Host.Outcome.next.injEq] at h
    exact .inl ⟨by rw [hh]; decide, by rw [hh]; decide, _, h.symm⟩

/-- The four turns a step can take: the completion where nothing is left, a transaction, an engine turn, a reset. -/
theorem step_inversion (s t : State) (h : step s = .next t) :
    (s.schedule = [] ∧ t = s.whileBusy State.completeDecode) ∨
    (∃ r rest, s.schedule = .request r :: rest ∧ exec (decode r) { s with schedule := rest } = .next t) ∨
    (∃ rest, s.schedule = .engine :: rest ∧
      t = State.whileBusy State.completeDecode { s with schedule := rest }) ∨
    (∃ rest, s.schedule = .reset :: rest ∧ t = State.resetRegisters { s with schedule := rest }) := by
  unfold step at h
  split at h
  · next hs => exact .inl ⟨hs, (Host.Outcome.next.inj h).symm⟩
  · next r rest hs => exact .inr (.inl ⟨r, rest, hs, h⟩)
  · next rest hs => exact .inr (.inr (.inl ⟨rest, hs, (Host.Outcome.next.inj h).symm⟩))
  · next rest hs => exact .inr (.inr (.inr ⟨rest, hs, (Host.Outcome.next.inj h).symm⟩))

/-! ## What no operation touches -/

@[simp] theorem State.ctrlCommands_schedule (start srst clrerr : Bool) (s : State) :
    (s.ctrlCommands start srst clrerr).schedule = s.schedule := by
  cases srst
  · rw [State.ctrlCommands_without_srst]; rfl
  · rfl

@[simp] theorem State.ctrlCommands_responses (start srst clrerr : Bool) (s : State) :
    (s.ctrlCommands start srst clrerr).responses = s.responses := by
  cases srst
  · rw [State.ctrlCommands_without_srst]; rfl
  · rfl

@[simp] theorem State.ctrlCommands_params (start srst clrerr : Bool) (s : State) :
    (s.ctrlCommands start srst clrerr).params = s.params := by
  cases srst
  · rw [State.ctrlCommands_without_srst]; rfl
  · rfl

@[simp] theorem State.storeCounter_schedule (i : Nat) (w : Word) (s : State) :
    (s.storeCounter i w).schedule = s.schedule := by
  unfold State.storeCounter; split <;> rfl

@[simp] theorem State.storeCounter_responses (i : Nat) (w : Word) (s : State) :
    (s.storeCounter i w).responses = s.responses := by
  unfold State.storeCounter; split <;> rfl

@[simp] theorem State.storeCounter_params (i : Nat) (w : Word) (s : State) :
    (s.storeCounter i w).params = s.params := by
  unfold State.storeCounter; split <;> rfl

@[simp] theorem State.whileBusy_completeDecode_schedule (s : State) :
    (s.whileBusy State.completeDecode).schedule = s.schedule := by
  unfold State.whileBusy; split <;> rfl

@[simp] theorem State.whileBusy_completeDecode_responses (s : State) :
    (s.whileBusy State.completeDecode).responses = s.responses := by
  unfold State.whileBusy; split <;> rfl

@[simp] theorem State.whileBusy_completeDecode_params (s : State) :
    (s.whileBusy State.completeDecode).params = s.params := by
  unfold State.whileBusy; split <;> rfl

@[simp] theorem State.whileBusy_completeDecode_pt (s : State) :
    (s.whileBusy State.completeDecode).pt = s.pt := by
  unfold State.whileBusy; split <;> rfl

/-! ## Runs -/

@[simp] theorem runSteps_zero (s : State) : runSteps 0 s = .next s := rfl

theorem runSteps_succ (k : Nat) (s t : State) (h : step s = .next t) : runSteps (k + 1) s = runSteps k t := by
  rw [runSteps, h]

/-- Two runs in a row are one run. -/
theorem runSteps_add (j k : Nat) (s t : State) (h : runSteps j s = .next t) :
    runSteps (j + k) s = runSteps k t := by
  induction j generalizing s with
  | zero =>
    rw [runSteps_zero, Host.Outcome.next.injEq] at h
    rw [h, Nat.zero_add]
  | succ j ih =>
    rw [runSteps] at h
    cases hs : step s with
    | next u =>
      rw [hs] at h
      rw [Nat.add_right_comm, runSteps_succ _ _ _ hs]
      exact ih u h
    | fault f => cases f
    | refused r => rw [hs] at h; cases h

end Sys2Proof.Machine
end

