-- ==== Sys2Proof/Tests/Slice0.lean ====
section
/-! SUPPORT. The WellFormed smoke tests, words decoded from the spec's encodings, single steps with the results that
95_test_vectors.md gives, and one witness for the hypotheses of each statement that has any. -/

namespace Sys2Proof.Tests

open Sys2Proof Sys2Proof.Machine

/-! ## Helpers -/

/-- A pulse train with every even entry `low` and the odd entry `i` at `high i`. -/
def pulses (low : Nat) (high : Nat → Nat) : PulseTrain :=
  ⟨((List.range 82).map fun i => BitVec.ofNat 32 (if i % 2 = 0 then low else high i)).toArray, by simp⟩

/-- Odd entries 80 where listed and 20 elsewhere. -/
def marks (listed : List Nat) (i : Nat) : Nat := if i ∈ listed then 80 else 20

/-- V-E1's input: the odd entries the vector lists at 80, and PT[1]. -/
def trainE1 : PulseTrain := pulses 50 (marks [1, 5, 11, 15, 17, 31, 41, 43, 47, 69, 71, 77, 79, 81])

/-- V-E2's input: V-E1's with PT[79] = 20. -/
def trainE2 : PulseTrain := pulses 50 (marks [1, 5, 11, 15, 17, 31, 41, 43, 47, 69, 71, 77, 81])

/-- The STATUS whose bits 3:0 and 9:8 are those of the word (R29). -/
def statusOf (w : Nat) : Status :=
  { busy := w.testBit 0, done := w.testBit 1, valid := w.testBit 2, mismatch := w.testBit 3, werr := w.testBit 8,
    aerr := w.testBit 9 }

/-- The default build with a pulse train and a STATUS, the result registers at reset. -/
def block (pt : PulseTrain) (status : Nat) : State := { State.reset with pt := pt, status := statusOf status }

/-- V-E1's state before and after its completion ("idle-done"), from the vector. -/
def busyE1 : State := block trainE1 0x1

def doneE1 : State :=
  { block trainE1 0x6 with
    sum := 2000, thresh := 50, data := #v[0x4B, 0x02, 0x1A, 0x00, 0x67], csum := 0x67, hum := 75, temp := 26 }

/-- V-E2's state before and after its completion. -/
def busyE2 : State := block trainE2 0x1

def doneE2 : State :=
  { block trainE2 0xA with sum := 2000, thresh := 50, data := #v[0x4B, 0x02, 0x1A, 0x00, 0x65], csum := 0x67 }

/-- V-C8's input in the mode given: lows 50 but PT[2] = 51, PT[3] = 50, every other high 0. -/
def modeBoundary (mode : ThreshMode) : State :=
  { block ((pulses 50 fun i => if i = 3 then 50 else 0).set 2 51) 0x1 with params := { Params.default with mode := mode } }

/-- The next state, if there is one. -/
def next : Host.Outcome State Fault Refusal → Option State
  | .next t => some t
  | .fault _ => none
  | .refused _ => none

/-- One step that performs the request `h`, `w` and nothing else. -/
def ask (h : Header) (w : Word) (s : State) : Option State := next (step { s with schedule := [.request ⟨h, w⟩] })

/-- The response of that step. -/
def answer (h : Header) (w : Word) (s : State) : Option Response := (ask h w s).bind fun t => t.responses.head?

/-- STATUS as it reads after that step. -/
def statusAfter (h : Header) (w : Word) (s : State) : Option Word := (ask h w s).map fun t => statusWord t.status

/-- SUM, THRESH, DATA[0..4], CSUM, HUM, TEMP and STATUS of a state. -/
def results (s : State) : List Nat :=
  [s.sum.toNat, s.thresh.toNat] ++ s.data.toList.map BitVec.toNat ++
    [s.csum.toNat, s.hum.toNat, s.temp.toNat, (statusWord s.status).toNat]

/-! ## WellFormed: each check refuses an ill-formed term -/

theorem test_wellFormed_refuses_rdPt_82 : Instr.wellFormed (.rdPt 82) = false := by decide
theorem test_wellFormed_refuses_wrPt_127 : Instr.wellFormed (.wrPt 127 0) = false := by decide
theorem test_wellFormed_refuses_busError_of_a_legal_header :
    Instr.wellFormed (.busError ⟨0x2544, 0⟩) = false ∧ Instr.wellFormed (.busError ⟨0xA000, 1⟩) = false := by decide
theorem test_wellFormed_accepts_81 : Instr.wellFormed (.rdPt 81) = true ∧ Instr.wellFormed (.wrPt 81 0) = true := by decide
/-- Each condition of R73 on a header: RSV, SIZE, alignment, the map, and writability. -/
theorem test_legal_refuses_each_condition :
    ([(0x6004 : Header), 0x0004, 0x1004, 0x3004, 0x2001, 0x2402, 0x2020, 0x23FC, 0x2548, 0x25FC, 0x2600, 0x2FFC,
      0xA004, 0xA01C].all fun h => !h.legal) = true := by decide

/-! ## Decode: header bits WE, RSV, SIZE, ADDR written out (R70, R73), and the request words of R79 -/

theorem test_decode_rdCtrl : decode ⟨0b0010000000000000, 0xFFFFFFFF⟩ = .rdCtrl := by decide
theorem test_decode_wrCtrl_start : decode ⟨0b1010000000000000, 0x00000001⟩ = .wrCtrl true false false := by decide
theorem test_decode_wrCtrl_srst_clrerr :
    decode ⟨0xA000, 0x00000002⟩ = .wrCtrl false true false ∧ decode ⟨0xA000, 0xFFFFFFF8⟩ = .wrCtrl false false false ∧
    decode ⟨0xA000, 0x00000004⟩ = .wrCtrl false false true := by decide
theorem test_decode_rdStatus : decode ⟨0b0010000000000100, 0⟩ = .rdStatus := by decide
theorem test_decode_rdThresh : decode ⟨0b0010000000001000, 0⟩ = .rdThresh := by decide
theorem test_decode_rdSum : decode ⟨0b0010000000001100, 0⟩ = .rdSum := by decide
theorem test_decode_rdData : decode ⟨0b0010000000010000, 0⟩ = .rdData := by decide
theorem test_decode_rdChk : decode ⟨0b0010000000010100, 0⟩ = .rdChk := by decide
theorem test_decode_rdReading : decode ⟨0b0010000000011000, 0⟩ = .rdReading := by decide
theorem test_decode_rdConfig : decode ⟨0b0010000000011100, 0⟩ = .rdConfig := by decide
theorem test_decode_rdPt : decode ⟨0b0010010000001100, 0⟩ = .rdPt 3 ∧ decode ⟨0b0010010101000100, 0⟩ = .rdPt 81 := by decide
theorem test_decode_wrPt :
    decode ⟨0b1010010000001100, 0x00000050⟩ = .wrPt 3 0x50 ∧ decode ⟨0b1010010101000100, 7⟩ = .wrPt 81 7 := by decide
/-- V-H15 to V-H24's headers. -/
theorem test_decode_busError :
    ([(0xA004 : Header), 0xA01C, 0x2020, 0x2548, 0x25FC, 0x2600, 0x2FFC, 0x8000, 0x1004, 0x3004, 0x2402, 0x2001, 0x6004,
      0xA548].all fun h => decode ⟨h, 5⟩ == .busError ⟨h, 5⟩) = true := by decide
/-- The engine rows have no word (R77). -/
theorem test_encode_engine_steps :
    encode .engThreshold = none ∧ encode .engClassify = none ∧ encode .engValidate = none ∧ encode .engComplete = none := by
  decide
/-- R79's requests. -/
theorem test_pseudo_instructions :
    Request.start = ⟨0xA000, 1⟩ ∧ Request.srst = ⟨0xA000, 2⟩ ∧ Request.clrerr = ⟨0xA000, 4⟩ ∧
    Request.wrpt 81 5 = ⟨0xA544, 5⟩ ∧ Request.rdpt 81 = ⟨0x2544, 0⟩ ∧ Request.poll = ⟨0x2004, 0⟩ ∧
    Request.xfer 1 0 0 1 = ⟨0x8000, 1⟩ ∧ Request.xfer 0 0b11 0x01C 0 = ⟨0x301C, 0⟩ := by decide
theorem test_decodeTableWord :
    decodeTableWord 16 0x2004 = some .rdStatus ∧ decodeTableWord 48 0x00000050A40C = some (.wrPt 3 0x50) ∧
    decodeTableWord 56 0x1000000000000 = none := by decide
theorem test_decodeBits_rejects_by_name : decodeBits (2 ^ 48) = .error .longerThanRequest := by rfl

/-! ## Single steps, from the vectors -/

/-- V-H1. -/
theorem test_rdCtrl : answer 0x2000 0 doneE1 = some ⟨.okay, 0⟩ := by decide
/-- V-H2 and V-H3. -/
theorem test_rdConfig :
    answer 0x201C 0 doneE1 = some ⟨.okay, 0x00002810⟩ ∧
    answer 0x201C 0 (State.resetOf ⟨16, .d41, .exact⟩) = some ⟨.okay, 0x00012910⟩ := by decide
/-- V-H4 and V-H5: the low CNT_W bits are stored. -/
theorem test_wrPt_truncates :
    (ask 0xA408 0x00010032 State.reset).map (fun t => (t.pt[2], t.responses)) = some (0x32, [⟨.okay, 0⟩]) ∧
    (ask 0xA408 0x000001FF (State.resetOf ⟨8, .d40, .int⟩)).map (fun t => t.pt[2]) = some 0xFF := by decide
/-- V-H6: dropped while BUSY. -/
theorem test_wrPt_while_busy :
    (ask 0xA410 0x00000032 (block (Vector.replicate 82 0) 0x1)).map (fun t => (t.pt[4], statusWord t.status, t.responses)) =
      some (0, 0x00000101, [⟨.okay, 0⟩]) := by decide
/-- V-H7, V-H9, V-H12 and V-H13: accepted commands. -/
theorem test_wrCtrl_accepted :
    (ask 0xA000 1 doneE1).map results = some [2000, 50, 0x4B, 2, 0x1A, 0, 0x67, 0x67, 75, 26, 0x00000001] ∧
    statusAfter 0xA000 4 (block trainE1 0x306) = some 0x00000006 ∧
    (ask 0xA000 3 busyE1).map (fun t => (t.pt[5], results t)) = some (0, [0, 0, 0, 0, 0, 0, 0, 0, 0, 0, 0]) ∧
    statusAfter 0xA000 0 (block trainE1 0x306) = some 0x00000306 := by decide
/-- V-H8, V-H10 and V-H11: START refused, and the order of CLRERR and START. -/
theorem test_wrCtrl_order :
    statusAfter 0xA000 1 busyE1 = some 0x00000101 ∧ statusAfter 0xA000 5 (block trainE1 0x10A) = some 0x00000001 ∧
    statusAfter 0xA000 5 (block trainE1 0x101) = some 0x00000101 := by decide
/-- R29's places, sticky bits included. -/
theorem test_rdStatus :
    answer 0x2004 0 (block trainE1 0x306) = some ⟨.okay, 0x00000306⟩ ∧
    answer 0x2004 0 (block trainE1 0x10A) = some ⟨.okay, 0x0000010A⟩ ∧
    answer 0x2004 0 busyE1 = some ⟨.okay, 0x00000001⟩ := by decide
/-- V-E1's and V-E2's register reads. -/
theorem test_rdSum : answer 0x200C 0 doneE1 = some ⟨.okay, 0x000007D0⟩ := by decide
theorem test_rdThresh : answer 0x2008 0 doneE1 = some ⟨.okay, 0x00000032⟩ := by decide
theorem test_rdData : answer 0x2010 0 doneE1 = some ⟨.okay, 0x001A024B⟩ := by decide
theorem test_rdChk :
    answer 0x2014 0 doneE1 = some ⟨.okay, 0x00006767⟩ ∧ answer 0x2014 0 doneE2 = some ⟨.okay, 0x00006765⟩ := by
  decide
theorem test_rdReading :
    answer 0x2018 0 doneE1 = some ⟨.okay, 0x00001A4B⟩ ∧ answer 0x2018 0 doneE2 = some ⟨.okay, 0⟩ := by decide
/-- V-H26 and V-H18. -/
theorem test_rdPt :
    answer 0x240C 0 busyE1 = some ⟨.okay, 20⟩ ∧ answer 0x2544 0 busyE1 = some ⟨.okay, 80⟩ ∧
    answer 0x2548 0 busyE1 = some ⟨.err, 0⟩ := by decide
/-- V-H15, V-H20 and V-H24. -/
theorem test_busError :
    statusAfter 0xA004 0 doneE1 = some 0x00000206 ∧ statusAfter 0x8000 1 State.reset = some 0x00000200 ∧
    statusAfter 0xA548 5 busyE1 = some 0x00000201 ∧ answer 0xA548 5 busyE1 = some ⟨.err, 0⟩ := by decide
/-- V-T2 and V-T5. -/
theorem test_engThreshold :
    (next (exec .engThreshold (modeBoundary .int))).map (fun t => (t.sum.toNat, t.thresh.toNat)) = some (2001, 50) ∧
    (next (exec .engThreshold (block (pulses 65535 fun _ => 65535) 0x1))).map (fun t => (t.sum.toNat, t.thresh.toNat)) =
      some (2621400, 65535) := by decide
/-- V-C8: the mode boundary. -/
theorem test_engClassify_modes :
    (next (exec .engClassify (modeBoundary .int))).map (fun t => t.data) = some #v[0x80, 0, 0, 0, 0] ∧
    (next (exec .engClassify (modeBoundary .exact))).map (fun t => t.data) = some #v[0, 0, 0, 0, 0] := by decide +kernel
/-- V-C2, V-C3 and V-C5 in one pulse train: where each bit lands. -/
theorem test_engClassify_places :
    (next (exec .engClassify (block (pulses 50 (marks [17, 19, 81])) 0x1))).map (fun t => t.data) =
      some #v[1, 0x80, 0, 0, 1] := by decide +kernel
/-- V-V3 and V-V8. -/
theorem test_engValidate :
    (next (exec .engValidate { busyE1 with data := #v[0x80, 0x80, 0, 0, 0] })).map
        (fun t => (t.csum.toNat, t.hum.toNat, t.temp.toNat, t.status.valid, t.status.mismatch)) =
      some (0, 128, 0, true, false) ∧
    (next (exec .engValidate { busyE1 with data := #v[0x4B, 0x02, 0x1A, 0x00, 0x66] })).map
        (fun t => (t.csum.toNat, t.hum.toNat, t.temp.toNat, t.status.valid, t.status.mismatch)) =
      some (0x67, 0, 0, false, true) := by decide
/-- V-E1 and V-E2. -/
theorem test_engComplete :
    (next (exec .engComplete busyE1)).map results = some [2000, 50, 0x4B, 2, 0x1A, 0, 0x67, 0x67, 75, 26, 0x00000006] ∧
    (next (exec .engComplete busyE2)).map results = some [2000, 50, 0x4B, 2, 0x1A, 0, 0x65, 0x67, 0, 0, 0x0000000A] := by
  decide +kernel
/-- V-T6, and V-T4's divisor. -/
theorem test_engComplete_parameters :
    (next (exec .engComplete { block ((Vector.replicate 82 0).set 2 39) 0x1 with params := ⟨16, .d40, .exact⟩ })).map results =
      some [39, 0, 0, 0, 0, 0, 0, 0, 0, 0, 0x6] ∧
    (next (exec .engComplete (block ((Vector.replicate 82 0).set 2 39) 0x1))).map results =
      some [39, 0, 255, 255, 255, 255, 255, 0xFC, 0, 0, 0xA] ∧
    (next (exec .engComplete { busyE1 with params := ⟨16, .d41, .int⟩ })).map (fun t => t.thresh.toNat) = some 48 := by
  decide +kernel
/-- V-X6: the hard reset, one step. -/
theorem test_hardReset :
    (next (step { doneE1 with schedule := [.reset] })).map (fun t => (t.pt[5], results t)) =
      some (0, [0, 0, 0, 0, 0, 0, 0, 0, 0, 0, 0]) := by decide
/-- The word the host places is the next request. -/
theorem test_withFetchWord :
    (next (step (State.reset.withFetchWord 48 0x00000050A40C))).map (fun t => (t.pt[3], t.schedule)) = some (80, []) := by
  decide

/-! ## Witnesses: states and operands that meet the hypotheses of each statement, each clause at the edge of its range -/

/-- The step answers a next state. -/
def steps (s : State) : Bool := (next (step s)).isSome

theorem doneE1_inv : doneE1.Inv := by decide
theorem doneE2_inv : doneE2.Inv := by decide
theorem busyE2_inv : busyE2.Inv := by decide
theorem busyE1_encodes : busyE1.PulsesEncode #v[0x4B, 0x02, 0x1A, 0x00, 0x67] := by decide
theorem busyE2_encodes : busyE2.PulsesEncode #v[0x4B, 0x02, 0x1A, 0x00, 0x65] := by decide

theorem witness_HardResetClearsEveryRegister :
    { doneE1 with schedule := [.reset, .engine] }.schedule = .reset :: [.engine] := by rfl
theorem witness_SoftResetIsAHardResetAnsweredOkay : ∃ t, step { doneE1 with schedule := .reset :: doneE1.schedule } = .next t :=
  ⟨_, rfl⟩
theorem witness_EveryRegisterReadsItsResetValue :
    (∃ t, step { busyE1 with schedule := .reset :: [] } = .next t) ∧
    (∃ t, exec (.wrCtrl true true true) busyE1 = .next t) ∧ (81 : PtIndex).toNat ≤ 81 ∧
    busyE1.params = Params.default := ⟨⟨_, rfl⟩, ⟨_, rfl⟩, by decide, rfl⟩
theorem witness_ResetDuringDecodeCancelsTheCompletion :
    busyE1.status.busy = true ∧ (∃ t, step { busyE1 with schedule := .reset :: busyE1.schedule } = .next t) ∧
    ∃ t, exec (.wrCtrl true true false) busyE1 = .next t := ⟨by decide, ⟨_, rfl⟩, ⟨_, rfl⟩⟩
/-- All four values of bits 3:0. -/
theorem witness_ReadingStatusAnswersItsFields :
    ([0x0, 0x301, 0x6, 0xA].all fun w =>
      decide ((statusOf w).BusyClean ∧ (statusOf w).OutcomeNeedsDone ∧ (statusOf w).OutcomeExclusive)) = true := by decide
theorem witness_ReadingThreshAndSumZeroExtends :
    doneE1.Inv ∧ doneE1.params.cntW = 16 ∧ doneE1.thresh.getLsbD 1 = true := ⟨doneE1_inv, rfl, rfl⟩
/-- Both sides of the equivalence. -/
theorem witness_ReadingChkShowsBothChecksums :
    (doneE1.Inv ∧ doneE1.status.done = true ∧ doneE1.status.valid = true) ∧
    (doneE2.Inv ∧ doneE2.status.done = true ∧ doneE2.status.valid = false) :=
  ⟨⟨doneE1_inv, rfl, rfl⟩, doneE2_inv, rfl, rfl⟩
/-- A mismatch, IDLE and with the next decode in flight, and a reset. -/
theorem witness_ReadingTheReadingShowsHumAndTemp :
    (doneE2.Inv ∧ doneE2.csum ≠ doneE2.data[4]) ∧ { doneE2 with status := statusOf 0x1 }.Inv ∧
    (∃ t, step { busyE1 with schedule := .reset :: busyE1.schedule } = .next t) ∧
    ∃ t, exec (.wrCtrl false true false) busyE1 = .next t :=
  ⟨⟨doneE2_inv, by decide⟩, by decide, ⟨_, rfl⟩, ⟨_, rfl⟩⟩
theorem witness_ReadingConfigAnswersTheBuild :
    Params.Legal ⟨1, .d40, .int⟩ ∧ Params.Legal ⟨26, .d41, .exact⟩ ∧ steps busyE1 = true ∧
    busyE1.params = Params.default := by decide
theorem witness_ReadingPtAnswersTheCounter : (81 : PtIndex).toNat < 82 ∧ 82 ≤ (82 : PtIndex).toNat := by decide
theorem witness_ReadsAreRepeatable : (81 : PtIndex).toNat ≤ 81 ∧ ∃ n : PtIndex, n.toNat ≤ 81 ∧ Instr.rdPt 81 = .rdPt n :=
  ⟨by decide, 81, by decide, rfl⟩
theorem witness_WritingPtStoresWhileIdleOnly :
    (81 : PtIndex).toNat < 82 ∧ doneE1.status.busy = false ∧ busyE1.status.busy = true ∧ 82 ≤ (82 : PtIndex).toNat ∧
    (1 : PtIndex).toNat < 2 := by decide
theorem witness_StartIsAcceptedWhileIdleOnly : doneE1.status.busy = false ∧ busyE1.status.busy = true := by decide
/-- The edges of each illegal range by their response, and legal headers at the edges beside them. -/
theorem witness_RequestsErrExactlyWhenIllegal :
    ([(0x6004 : Header), 0x1004, 0x3004, 0x2001, 0x2402, 0x2020, 0x23FC, 0x2548, 0x25FC, 0x2600, 0x2FFC, 0xA004,
      0xA01C].all fun h => answer h 0 busyE1 == some ⟨.err, 0⟩) = true ∧
    ([(0x2000 : Header), 0xA000, 0x2004, 0x201C, 0x2400, 0xA400, 0x2544, 0xA544].all fun h =>
      (answer h 0 busyE1).map Response.resp == some .okay) = true := by decide
theorem witness_WritingAReadOnlyRegisterIsABusError :
    (0xA01C : Header) ∈ [(0xA004 : Header), 0xA008, 0xA00C, 0xA010, 0xA014, 0xA018, 0xA01C] := by simp
/-- Both requests that set WERR, and the same two while IDLE, where it stays 0. -/
theorem witness_WriteWhileBusySetsWerrExactly :
    busyE1.status.werr = false ∧ statusAfter 0xA544 5 busyE1 = some 0x101 ∧ statusAfter 0xA000 5 busyE1 = some 0x101 ∧
    statusAfter 0xA544 5 doneE1 = some 0x6 ∧ statusAfter 0xA000 5 doneE1 = some 0x1 := by decide
/-- Each of the two bits is cleared by CLRERR, by SRST and by a reset. -/
theorem witness_StickyErrorBitsAreClearedByCommandOnly :
    statusAfter 0xA000 4 (block trainE1 0x306) = some 0x6 ∧ statusAfter 0xA000 2 (block trainE1 0x306) = some 0 ∧
    (next (step { block trainE1 0x306 with schedule := [.reset] })).map (fun t => statusWord t.status) = some 0 := by
  decide
theorem witness_DecodingAnEncodingGivesTheInstruction :
    ([Instr.rdPt 81, .wrPt 81 0xFFFFFFFF, .wrCtrl true false true, .busError ⟨0x2548, 9⟩, .engComplete].all
      Instr.wellFormed) = true := by decide
theorem witness_OpcodeRowsAreDisjoint : rowRdPt ∈ headerRows ∧ rowRdPt.hits 0x2544 = true := by decide
theorem witness_ReservedBitsOfLegalRequestsAreIgnored :
    Header.legal 0x2544 = true ∧ (0x2544 : Header).getLsbD 15 = false ∧
    (0xFFFFFFF9 : Word).toNat % 8 = (1 : Word).toNat % 8 ∧
    (0xFFFF0032 : Word).toNat % 2 ^ State.reset.params.cntW = (0x32 : Word).toNat % 2 ^ State.reset.params.cntW := by decide
/-- Indices 81 and 82, read and write. -/
theorem witness_PulseTrainWindowDecodesByIndex :
    (0x2544 : Header) = BitVec.ofBool false ++ 0#1 ++ 0b10#2 ++ 0b010#3 ++ (81 : PtIndex) ++ 0b00#2 ∧
    (0xA548 : Header) = BitVec.ofBool true ++ 0#1 ++ 0b10#2 ++ 0b010#3 ++ (82 : PtIndex) ++ 0b00#2 ∧
    (81 : PtIndex).toNat ≤ 81 ∧ 82 ≤ (82 : PtIndex).toNat := by decide
theorem witness_ThresholdStageSumsAndDivides :
    busyE2.status.busy = true ∧ busyE2.params.Legal ∧ busyE2.Widths := ⟨rfl, busyE2_inv.1, busyE2_inv.2.1⟩
/-- A sum that 40 divides, with the exact quotient, and one that it does not, with a quotient off by 2^-28. -/
theorem witness_ExactModeAgreesWithARoundedAverage :
    let p : Params := ⟨16, .d40, .exact⟩
    (p.mode = .exact ∧ 2000 < 2 ^ 32 ∧ (p.divisor.toNat ∣ 2000 → (50 : ℚ) = p.exactAverage 2000) ∧
      |(50 : ℚ) - p.exactAverage 2000| ≤ 1 / 2 ^ 27) ∧
    ((p.divisor.toNat ∣ 2001 → (2001 / 40 + 1 / 2 ^ 28 : ℚ) = p.exactAverage 2001) ∧
      |(2001 / 40 + 1 / 2 ^ 28 : ℚ) - p.exactAverage 2001| ≤ 1 / 2 ^ 27) := by
  norm_num [Params.exactAverage, Divisor.toNat]
/-- A tie in INT mode, a tie in EXACT mode, and the floored quotient of 2001 in EXACT mode. -/
theorem witness_ACounterEqualToTheThresholdIsOne :
    counter (pulses 50 fun _ => 50) (2 * 39 + 3) = 2001 / (Divisor.d40).toNat ∧
    counter (pulses 50 fun _ => 50) (2 * 39 + 3) * (Divisor.d40).toNat = 2000 ∧ 2001 % (Divisor.d40).toNat ≠ 0 := by
  decide
theorem witness_ClassifierPacksEachByteMostSignificantFirst : busyE1.status.busy = true := by decide
/-- Both outcomes. -/
theorem witness_ValidatorChecksTheFifthByte :
    { doneE1 with status := statusOf 0x1 }.status.busy = true ∧ checksum doneE1.data = doneE1.data[4] ∧
    { doneE2 with status := statusOf 0x1 }.status.busy = true ∧ checksum doneE2.data ≠ doneE2.data[4] := by decide
/-- Both outcomes. -/
theorem witness_CompletionWritesEveryResultAtOnce :
    let s : State := { doneE1 with status := statusOf 0x1 }
    (s.status.busy = true ∧ s.params.Legal ∧ s.Widths ∧ s.PulsesEncode #v[0x4B, 0x02, 0x1A, 0, 0x67]) ∧
    busyE2.status.busy = true ∧ busyE2.params.Legal ∧ busyE2.Widths ∧ busyE2.PulsesEncode #v[0x4B, 0x02, 0x1A, 0, 0x65] :=
  ⟨⟨rfl, doneE1_inv.1, doneE1_inv.2.1, busyE1_encodes⟩, rfl, busyE2_inv.1, busyE2_inv.2.1, busyE2_encodes⟩
theorem witness_CompletionIsTheThreeStagesInOrder : busyE2.status.busy = true := by decide
theorem witness_TheEngineDoesNothingWhileIdle :
    doneE1.status.busy = false ∧ Instr.engClassify.isEngineStep = true ∧ Instr.engComplete.isEngineStep = true := by decide
/-- V-T8: PT[0], PT[1], the results and the error bits differ. -/
theorem witness_ResultsDependOnTheDataCountersOnly :
    let s' : State := { doneE2 with pt := (trainE1.set 0 65535).set 1 65535, status := statusOf 0x301 }
    busyE1.status.busy = true ∧ s'.status.busy = true ∧ busyE1.params = s'.params ∧
    (∀ i : Fin 82, 2 ≤ i.val → busyE1.pt[i] = s'.pt[i]) ∧ busyE1.pt ≠ s'.pt := by decide
theorem witness_AValidPulseTrainGivesItsReading :
    busyE1.status.busy = true ∧
    (0x67 : Byte).toNat = ((0x4B : Byte).toNat + (0x02 : Byte).toNat + (0x1A : Byte).toNat + (0 : Byte).toNat) % 256 ∧
    busyE1.PulsesEncode #v[0x4B, 0x02, 0x1A, 0x00, 0x67] := ⟨rfl, by decide, busyE1_encodes⟩
/-- V-E5a's flip of byte 0, bit 0 and V-V2's of byte 4, bit 1, and the pair of flips that still passes. -/
theorem witness_ASingleBitFlipIsAlwaysDetected :
    let b : DataBytes := #v[0x4B, 0x02, 0x1A, 0x00, 0x67]
    let v : DataBytes := #v[0x4A, 0x03, 0x1A, 0x00, 0x67]
    b[4].toNat = (b[0].toNat + b[1].toNat + b[2].toNat + b[3].toNat) % 256 ∧
    (block (pulses 50 (marks [5, 11, 15, 31, 41, 43, 47, 69, 71, 77, 79, 81])) 0x1).PulsesEncode
      (b.set 0 (b[0] ^^^ BitVec.twoPow 8 0)) ∧
    busyE2.PulsesEncode (b.set 4 (b[4] ^^^ BitVec.twoPow 8 1)) ∧ busyE2.status.busy = true ∧
    v[4].toNat = (v[0].toNat + v[1].toNat + v[2].toNat + v[3].toNat) % 256 ∧ v[0].getLsbD 0 = false ∧
    v[1].getLsbD 0 = true ∧ busyE1.PulsesEncode #v[v[0] ^^^ 1, v[1] ^^^ 1, v[2], v[3], v[4]] := by decide
theorem witness_DecodingAgainGivesTheSameResults : busyE1.status.busy = true := by decide
theorem witness_ResetMeetsTheInvariant : Params.Legal ⟨1, .d41, .exact⟩ ∧ Params.Legal ⟨26, .d40, .int⟩ := by decide
/-- IDLE and BUSY, before every kind of turn. -/
theorem witness_EveryStepKeepsTheInvariant :
    (∀ q, { doneE1 with schedule := q }.Inv) ∧ (∀ q, { busyE2 with schedule := q }.Inv) ∧
    ([[], [Turn.engine], [.reset], [.request .start], [.request (.wrpt 81 70000)]].all fun q =>
      steps { doneE1 with schedule := q } && steps { busyE2 with schedule := q }) = true :=
  ⟨fun _ => doneE1_inv, fun _ => busyE2_inv, by decide⟩
theorem witness_ReadingIsZeroAfterAMismatchButNotAfterStart :
    doneE2.Inv ∧ doneE2.status.done = true ∧ doneE2.status.valid = false := ⟨doneE2_inv, rfl, rfl⟩
/-- Each of the three ways PT changes. -/
theorem witness_PtIsWrittenByTheHostWhileIdleOnly :
    ([[Turn.reset], [.request .srst], [.request (.wrpt 81 5)]].all fun q =>
      ((next (step { doneE1 with schedule := q })).any fun t => t.pt[81] != doneE1.pt[81])) = true := by decide
/-- Each of the ways a result register changes. -/
theorem witness_ResultsAreWrittenByCompletionOrResetOnly :
    ([[], [Turn.engine], [.reset], [.request .srst]].all fun q =>
      ((next (step { doneE2 with pt := trainE1, status := statusOf 0x1, schedule := q })).any fun t =>
        t.sum != doneE2.sum || t.data[4] != doneE2.data[4])) = true := by decide +kernel
/-- A read, CLRERR, a PT write and an engine turn. -/
theorem witness_DoneResultsStayUntilTheNextStart :
    doneE1.status.BusyClean ∧ doneE1.status.done = true ∧
    ([[Turn.request .poll], [.request .clrerr], [.request (.wrpt 3 5)], [.engine]].all fun q =>
      steps { doneE1 with schedule := q }) = true ∧
    decode .poll = .rdStatus ∧ decode .clrerr = .wrCtrl false false true ∧ decode (.wrpt 3 5) = .wrPt 3 5 := by decide
theorem witness_StepRunsTheDecodedRequest :
    { busyE1 with schedule := [.request .start, .engine] }.schedule = .request .start :: [.engine] := by rfl
theorem witness_StepRunsTheCompletion :
    { busyE1 with schedule := [.engine] }.schedule = .engine :: [] ∧ busyE1.schedule = [] ∧ doneE1.schedule = [] ∧
    doneE1.status.busy = false := by decide
theorem witness_EveryRequestGetsOneResponse :
    { busyE1 with schedule := [.request .start] }.schedule = .request .start :: [] ∧ Request.start.header.getLsbD 15 = true ∧
    answer 0x2548 0 busyE1 = some ⟨.err, 0⟩ := by decide
theorem witness_EveryStepAnswersANextState :
    ¬∃ (r : Request) (rest : List Turn), { busyE1 with schedule := [.engine] }.schedule = .request r :: rest := by
  rintro ⟨r, rest, h⟩
  cases h
theorem witness_BothOrdersOfWriteAndCompletionAreAdmitted :
    (81 : PtIndex).toNat < 82 ∧ doneE1.status.busy = false ∧ doneE1.status.werr = false := by decide
theorem witness_LoadingACaptureStoresEveryCounter : State.reset.status.busy = false := by decide
/-- Captures of both outcomes. -/
theorem witness_TheDecodeProcedureReportsTheCapture :
    State.reset.status.busy = false ∧ State.reset.status.werr = false ∧ State.reset.status.aerr = false ∧
    (∀ i : Fin 82, trainE1[i].toNat < 2 ^ State.reset.params.cntW) ∧
    (∀ i : Fin 82, trainE2[i].toNat < 2 ^ State.reset.params.cntW) ∧
    busyE1.PulsesEncode #v[0x4B, 0x02, 0x1A, 0x00, 0x67] ∧ busyE2.PulsesEncode #v[0x4B, 0x02, 0x1A, 0x00, 0x65] :=
  ⟨rfl, rfl, rfl, doneE1_inv.2.1.1, busyE2_inv.2.1.1, busyE1_encodes, busyE2_encodes⟩

end Sys2Proof.Tests
end

section
/-! PROOFS. The statements of 10_state.md: what every step keeps (O45, O46), the constant CONFIG (O11), what a completion's
results depend on (O40) and which steps write PT and the result registers (O47, O48). -/

namespace Sys2Proof.Machine

open Sys2Proof

/-! ## The invariant, one rule per operation

The invariant speaks of no schedule and no response, so a turn taken off or a response given keeps it by definition. -/

/-- An accepted START leaves BUSY = 1 with DONE = VALID = MISMATCH = 0 and keeps the result registers (R164). -/
theorem State.Inv.started {s : State} (h : s.Inv) : (s.mapStatus Status.started).Inv := by
  obtain ⟨hlegal, hwidths, -, -, -, hthresh, hcsum, hread, hzero, -⟩ := h
  exact ⟨hlegal, hwidths, fun _ => ⟨rfl, rfl, rfl⟩, fun _ => ⟨rfl, rfl⟩, Bool.false_ne_true.elim, hthresh, hcsum, hread,
    hzero, Bool.false_ne_true.elim⟩

/-- An access error sets AERR, of which the invariant does not speak. -/
theorem State.Inv.accessError {s : State} (h : s.Inv) : s.accessError.Inv := h

/-- A refused write sets WERR, of which the invariant does not speak. -/
theorem State.Inv.writeRefused {s : State} (h : s.Inv) : (s.mapStatus Status.writeRefused).Inv := h

theorem State.Inv.clearErrors {s : State} (h : s.Inv) : s.clearErrors.Inv := h

theorem State.Inv.startDecode {s : State} (h : s.Inv) : s.startDecode.Inv := by
  cases hb : s.status.busy with
  | false =>
    rw [State.startDecode_of_idle s hb]
    exact h.started
  | true =>
    rw [State.startDecode_of_busy s hb]
    exact h.writeRefused

theorem State.Inv.setPt {s : State} (h : s.Inv) (i : Nat) {w : Word} (hw : w.toNat < 2 ^ s.params.cntW) :
    (s.setPt i w).Inv := by
  obtain ⟨hlegal, ⟨hpt, hsum⟩, hrest⟩ := h
  refine ⟨hlegal, ⟨fun k => ?_, hsum⟩, hrest⟩
  have hk : s.pt[k.val].toNat < 2 ^ s.params.cntW := hpt k
  by_cases hik : i = k.val
  · simpa [hik] using hw
  · simpa [hik] using hk

theorem State.Inv.storeCounter {s : State} (h : s.Inv) (i : Nat) (w : Word) : (s.storeCounter i w).Inv := by
  cases hb : s.status.busy with
  | false =>
    rw [State.storeCounter_of_idle i w s hb]
    exact h.setPt i (ptValue_lt s.params w)
  | true =>
    rw [State.storeCounter_of_busy i w s hb]
    exact h.writeRefused

/-- The reset state of every legal build meets the invariant (R230). -/
theorem State.inv_resetOf {p : Params} (hp : p.Legal) : (State.resetOf p).Inv := by
  have hwidths : (State.resetOf p).Widths := by simp [State.Widths]
  have hchecksum : checksum (Vector.replicate 5 0#8) = 0#8 := by decide
  have hagree : (State.resetOf p).ResultsAgree := by simp [State.ResultsAgree, hchecksum]
  exact ⟨hp, hwidths, Bool.false_ne_true.elim, fun _ => ⟨rfl, rfl⟩, Bool.false_ne_true.elim, hagree⟩

theorem State.Inv.resetRegisters {s : State} (h : s.Inv) : s.resetRegisters.Inv :=
  State.inv_resetOf h.1

theorem State.Inv.ctrlCommands {s : State} (h : s.Inv) (start srst clrerr : Bool) :
    (s.ctrlCommands start srst clrerr).Inv := by
  cases srst with
  | true => exact h.resetRegisters
  | false =>
    have hcleared : (if clrerr then s.clearErrors else s).Inv := by
      cases clrerr with
      | true => exact h.clearErrors
      | false => exact h
    cases start with
    | true => exact hcleared.startDecode
    | false => exact hcleared

/-- A completion leaves results that agree with each other and fit in their registers (R172). -/
theorem State.Inv.completeDecode {s : State} (h : s.Inv) : s.completeDecode.Inv := by
  obtain ⟨hlegal, hwidths, -⟩ := h
  have hsum := s.thresholdStage_sum_toNat hlegal hwidths
  have hthresh := s.thresholdStage_thresh_toNat hlegal hwidths
  have hfits : s.completeDecode.Widths := ⟨hwidths.1, hsum ▸ s.lowSum_lt hwidths, hthresh ▸ s.quotient_lt hwidths⟩
  have hagree : s.completeDecode.ResultsAgree := by
    rw [State.completeDecode_spec]
    refine ⟨hthresh.trans (by rw [hsum]), rfl, fun heq => ?_, fun hne => ?_, fun _ => rfl⟩
    · have hok := (checksumOk_iff _).mpr heq
      exact ⟨if_pos hok, if_pos hok⟩
    · have hbad := mt (checksumOk_iff _).mp hne
      exact ⟨if_neg hbad, if_neg hbad⟩
  exact ⟨hlegal, hfits, Bool.false_ne_true.elim, Bool.false_ne_true.symm.elim, fun _ => rfl, hagree⟩

theorem State.Inv.whileBusy_completeDecode {s : State} (h : s.Inv) : (s.whileBusy State.completeDecode).Inv := by
  cases hb : s.status.busy with
  | false => rwa [State.whileBusy_of_idle _ s hb]
  | true =>
    rw [State.whileBusy_of_busy _ s hb]
    exact h.completeDecode

/-- A transaction keeps the invariant. -/
theorem State.Inv.exec_request {s t : State} (h : s.Inv) (r : Request) (ht : exec (decode r) s = .next t) : t.Inv := by
  obtain ⟨-, -, w, rfl⟩ | ⟨start, srst, clrerr, -, rfl⟩ | ⟨i, w, -, -, rfl⟩ | ⟨-, -, rfl⟩ :=
    exec_request_inversion r s t ht
  · exact h
  · exact h.ctrlCommands start srst clrerr
  · exact h.storeCounter i.toNat w
  · exact h.accessError

/-- Settles O45: one case per kind of turn. -/
theorem everyStepKeepsTheInvariant : Obligations.EveryStepKeepsTheInvariant := by
  intro s t h hstep
  obtain ⟨-, rfl⟩ | ⟨r, rest, -, hexec⟩ | ⟨rest, -, rfl⟩ | ⟨rest, -, rfl⟩ := step_inversion s t hstep
  · exact h.whileBusy_completeDecode
  · exact State.Inv.exec_request (s := { s with schedule := rest }) h r hexec
  · exact State.Inv.whileBusy_completeDecode (s := { s with schedule := rest }) h
  · exact State.Inv.resetRegisters (s := { s with schedule := rest }) h

/-! ## R30 (d) -/

/-- With DONE = 1 and VALID = 0 the checksums differ, so the reading is 0. -/
theorem State.Inv.reading_zero_of_mismatch {s : State} (h : s.Inv) (hdone : s.status.done = true)
    (hvalid : s.status.valid = false) : s.hum = 0 ∧ s.temp = 0 := by
  obtain ⟨-, -, -, -, -, -, -, -, hzero, hagree⟩ := h
  apply hzero
  rw [← beq_eq_false_iff_ne, ← hagree hdone, hvalid]

/-- The default build after a valid decode of the bytes 1, 0, 0, 0 and their checksum 1, each data-low counter 1, and with
PT written to 0 since. -/
def State.afterValidDecode : State :=
  { State.reset with
    sum := 40, thresh := 1, data := #v[1, 0, 0, 0, 1], csum := 1, hum := 1, temp := 0
    status := { Status.reset with done := true, valid := true } }

/-- Settles O46: the checksums differ after a mismatch; an accepted START from `State.afterValidDecode` clears VALID and
keeps HUM = 1. -/
theorem readingIsZeroAfterAMismatchButNotAfterStart : Obligations.ReadingIsZeroAfterAMismatchButNotAfterStart := by
  have hinv : State.afterValidDecode.Inv := by decide
  have hreading : State.afterValidDecode.ReadingNeedsValid := by decide
  refine ⟨fun s h => h.reading_zero_of_mismatch, State.afterValidDecode,
    (State.afterValidDecode.ctrlCommands true false false).respond .okay 0, hinv, hreading, rfl, ?_⟩
  decide

/-! ## CONFIG -/

/-- The build parameters are written by no step (R33). -/
theorem step_params {s t : State} (h : step s = .next t) : t.params = s.params := by
  obtain ⟨-, rfl⟩ | ⟨r, rest, -, hexec⟩ | ⟨rest, -, rfl⟩ | ⟨rest, -, rfl⟩ := step_inversion s t h
  · simp
  · obtain ⟨-, -, w, rfl⟩ | ⟨start, srst, clrerr, -, rfl⟩ | ⟨i, w, -, -, rfl⟩ | ⟨-, -, rfl⟩ :=
      exec_request_inversion r _ t hexec <;> simp
  · simp
  · simp

theorem divisor_le_forty_one (d : Divisor) : d.toNat ≤ 41 := by cases d <;> decide

theorem modeBit_le_one (m : ThreshMode) : modeBit m ≤ 1 := by cases m <;> decide

/-- CONFIG of a legal build as a number: no field is cut off. -/
theorem configWord_toNat {p : Params} (hp : p.Legal) :
    (configWord p).toNat = p.cntW + 2 ^ 8 * p.divisor.toNat + 2 ^ 16 * modeBit p.mode := by
  obtain ⟨-, hcnt⟩ := hp
  have hdiv := divisor_le_forty_one p.divisor
  have hmode := modeBit_le_one p.mode
  rw [configWord, BitVec.toNat_ofNat]
  omega

/-- A field of CONFIG as a number. -/
theorem configWord_field_toNat {p : Params} (hp : p.Legal) (start len : Nat) :
    ((configWord p).extractLsb' start len).toNat =
      (p.cntW + 2 ^ 8 * p.divisor.toNat + 2 ^ 16 * modeBit p.mode) / 2 ^ start % 2 ^ len := by
  rw [BitVec.extractLsb'_toNat, configWord_toNat hp, Nat.shiftRight_eq_div_pow]

/-- The MODE bit of CONFIG is bit 16. -/
theorem configWord_getLsbD_mode {p : Params} (hp : p.Legal) :
    (configWord p).getLsbD 16 = true ↔ p.mode = .exact := by
  have hcnt := hp.2
  have hdiv := divisor_le_forty_one p.divisor
  have hbit : (configWord p).getLsbD 16 = decide (modeBit p.mode = 1) := by
    have hmode := modeBit_le_one p.mode
    rw [BitVec.getLsbD, configWord_toNat hp, Nat.testBit_eq_decide_div_mod_eq, decide_eq_decide]
    omega
  rw [hbit]
  cases p.mode <;> simp [modeBit]

/-- Settles O11: CONFIG's word is a function of the parameters, which no step writes. -/
theorem readingConfigAnswersTheBuild : Obligations.ReadingConfigAnswersTheBuild := by
  intro s hp
  have hcnt := hp.2
  have hdiv := divisor_le_forty_one s.params.divisor
  have hmode := modeBit_le_one s.params.mode
  refine ⟨configWord s.params, rfl, ?_, ?_, configWord_getLsbD_mode hp, BitVec.eq_of_toNat_eq ?_, fun hd => ?_,
    fun t ht => ?_⟩
  · rw [configWord_field_toNat hp]; omega
  · rw [configWord_field_toNat hp]; omega
  · rw [configWord_field_toNat hp]
    change _ = 0
    omega
  · rw [hd]; decide
  · rw [← step_params ht]; rfl

/-! ## What a completion reads -/

/-- The pulse trains hold the same counters PT[2..81] (R22). -/
def SameDataCounters (pt pt' : PulseTrain) : Prop := ∀ i : Fin 82, 2 ≤ i.val → pt[i] = pt'[i]

theorem SameDataCounters.counter {pt pt' : PulseTrain} (h : SameDataCounters pt pt') {i : Nat} (h2 : 2 ≤ i)
    (h82 : i < 82) : counter pt i = counter pt' i := by
  rw [counter_eq_getElem pt i h82, counter_eq_getElem pt' i h82]
  exact congrArg BitVec.toNat (h ⟨i, h82⟩ h2)

theorem SameDataCounters.dataLowSum {s s' : State} (h : SameDataCounters s.pt s'.pt) :
    s.dataLowSum = s'.dataLowSum := by
  refine Finset.sum_congr rfl fun k hk => ?_
  obtain ⟨h1, h40⟩ := Finset.mem_Icc.mp hk
  exact h.counter (by omega) (by omega)

/-- The same data counters encode the same bytes. -/
theorem SameDataCounters.classifyStage_data {s s' : State} (h : SameDataCounters s.pt s'.pt)
    (hp : s.params = s'.params) : s.classifyStage.data = s'.classifyStage.data := by
  apply s.classifyStage_data_of_encodes
  intro j m
  rw [s'.classifyStage_encodes j m, hp, h.dataLowSum, h.counter (by omega) (by omega)]

/-- Settles O40: SUM, THRESH and DATA are functions of PT[2..81] and the parameters, and the rest is a function of DATA. -/
theorem resultsDependOnTheDataCountersOnly : Obligations.ResultsDependOnTheDataCountersOnly := by
  intro s s' hbusy hbusy' hp hpt
  have hpt : SameDataCounters s.pt s'.pt := hpt
  have hlow : lowSum s.pt = lowSum s'.pt := by
    rw [s.lowSum_eq_dataLowSum, s'.lowSum_eq_dataLowSum, hpt.dataLowSum]
  have hdata := hpt.classifyStage_data hp
  refine ⟨s.completeDecode, s'.completeDecode, ?_, ?_, ?_, ?_, ?_⟩
  · rw [exec, execEngComplete, State.whileBusy_of_busy _ s hbusy]
  · rw [exec, execEngComplete, State.whileBusy_of_busy _ s' hbusy']
  · simp only [State.SameResults, State.completeDecode_spec, State.thresholdStage_sum, State.thresholdStage_thresh,
      hlow, hp, hdata, and_self]
  · simp only [State.completeDecode_spec, Status.finished_valid, Status.validated_valid, hdata]
  · simp only [State.completeDecode_spec, Status.finished_mismatch, Status.validated_mismatch, hdata]

/-! ## Which steps write PT -/

theorem State.ctrlCommands_pt_without_srst (start clrerr : Bool) (s : State) :
    (s.ctrlCommands start false clrerr).pt = s.pt := by
  rw [State.ctrlCommands_without_srst, State.mapStatus_pt]

theorem State.storeCounter_pt_of_busy (i : Nat) (w : Word) (s : State) (h : s.status.busy = true) :
    (s.storeCounter i w).pt = s.pt := by
  rw [State.storeCounter_of_busy i w s h, State.mapStatus_pt]

/-- A transaction that changes PT is an SRST or a PT write while IDLE. -/
theorem exec_request_changes_pt {r : Request} {s t : State} (ht : exec (decode r) s = .next t) (hne : t.pt ≠ s.pt) :
    (∃ start clrerr : Bool, decode r = .wrCtrl start true clrerr) ∨
      ∃ (i : PtIndex) (w : Word), decode r = .wrPt i w ∧ i.toNat ≤ 81 ∧ s.status.busy = false := by
  obtain ⟨-, -, w, rfl⟩ | ⟨start, srst, clrerr, hd, rfl⟩ | ⟨i, w, hd, hi, rfl⟩ | ⟨-, -, rfl⟩ :=
    exec_request_inversion r s t ht
  · exact absurd rfl hne
  · cases srst with
    | true => exact .inl ⟨start, clrerr, hd⟩
    | false => exact absurd (s.ctrlCommands_pt_without_srst start clrerr) hne
  · cases hb : s.status.busy with
    | false => exact .inr ⟨i, w, hd, hi, rfl⟩
    | true => exact absurd (s.storeCounter_pt_of_busy i.toNat w hb) hne
  · exact absurd rfl hne

/-- Settles O47: the engine keeps PT, and a request is one of `exec_request_changes_pt`. -/
theorem ptIsWrittenByTheHostWhileIdleOnly : Obligations.PtIsWrittenByTheHostWhileIdleOnly := by
  intro s t hstep hne
  obtain ⟨-, rfl⟩ | ⟨r, rest, hs, hexec⟩ | ⟨rest, -, rfl⟩ | ⟨rest, hs, -⟩ := step_inversion s t hstep
  · exact absurd s.whileBusy_completeDecode_pt hne
  · exact .inr ⟨r, rest, hs, exec_request_changes_pt (s := { s with schedule := rest }) hexec hne⟩
  · exact absurd (State.whileBusy_completeDecode_pt { s with schedule := rest }) hne
  · exact .inl ⟨rest, hs⟩

/-! ## Which steps write the result registers -/

theorem State.sameResults_refl (s : State) : s.SameResults s := ⟨rfl, rfl, rfl, rfl, rfl, rfl⟩

theorem State.sameResults_ctrlCommands_without_srst (start clrerr : Bool) (s : State) :
    s.SameResults (s.ctrlCommands start false clrerr) := by
  rw [State.ctrlCommands_without_srst]
  exact s.sameResults_refl

theorem State.sameResults_storeCounter (i : Nat) (w : Word) (s : State) : s.SameResults (s.storeCounter i w) := by
  cases hb : s.status.busy with
  | false => rw [State.storeCounter_of_idle i w s hb]; exact s.sameResults_refl
  | true => rw [State.storeCounter_of_busy i w s hb]; exact s.sameResults_refl

/-- An engine turn that changes a result register falls while BUSY. -/
theorem State.busy_of_whileBusy_changes_results {f : State → State} {s : State}
    (hne : ¬s.SameResults (s.whileBusy f)) : s.status.busy = true := by
  cases hb : s.status.busy with
  | true => rfl
  | false =>
    rw [State.whileBusy_of_idle f s hb] at hne
    exact absurd s.sameResults_refl hne

/-- A transaction that changes a result register is an SRST. -/
theorem exec_request_changes_results {r : Request} {s t : State} (ht : exec (decode r) s = .next t)
    (hne : ¬s.SameResults t) : ∃ start clrerr : Bool, decode r = .wrCtrl start true clrerr := by
  obtain ⟨-, -, w, rfl⟩ | ⟨start, srst, clrerr, hd, rfl⟩ | ⟨i, w, -, -, rfl⟩ | ⟨-, -, rfl⟩ :=
    exec_request_inversion r s t ht
  · exact absurd s.sameResults_refl hne
  · cases srst with
    | true => exact ⟨start, clrerr, hd⟩
    | false => exact absurd (s.sameResults_ctrlCommands_without_srst start clrerr) hne
  · exact absurd (s.sameResults_storeCounter i.toNat w) hne
  · exact absurd s.sameResults_refl hne

/-- Settles O48: an engine turn counts while BUSY alone, and a request is an SRST by `exec_request_changes_results`. -/
theorem resultsAreWrittenByCompletionOrResetOnly : Obligations.ResultsAreWrittenByCompletionOrResetOnly := by
  intro s t hstep hne
  obtain ⟨hs, rfl⟩ | ⟨r, rest, hs, hexec⟩ | ⟨rest, hs, rfl⟩ | ⟨rest, hs, -⟩ := step_inversion s t hstep
  · exact .inl ⟨State.busy_of_whileBusy_changes_results hne, .inl hs⟩
  · obtain ⟨start, clrerr, hd⟩ := exec_request_changes_results (s := { s with schedule := rest }) hexec hne
    exact .inr (.inr ⟨r, rest, start, clrerr, hs, hd⟩)
  · exact .inl ⟨State.busy_of_whileBusy_changes_results (s := { s with schedule := rest }) hne, .inr ⟨rest, hs⟩⟩
  · exact .inr (.inl ⟨rest, hs⟩)

end Sys2Proof.Machine
end

section
/-! PROOFS. The statements of 20_memory.md: the PT window of the register map (O28), reads without side effect (O13) and
results that stay until the next START, SRST or reset (O49). -/

namespace Sys2Proof.Machine

open Sys2Proof

/-! ## The PT window -/

/-- Fields side by side as numbers (R8). -/
theorem toNat_append_eq_add {m n : Nat} (x : BitVec m) (y : BitVec n) :
    (x ++ y).toNat = x.toNat * 2 ^ n + y.toNat := by
  rw [BitVec.toNat_append, ← Nat.shiftLeft_add_eq_or_of_lt y.isLt, Nat.shiftLeft_eq]

/-- The header of a 32-bit, RSV = 0 request in the PT window as a number (R52, R70): WE, window and index. -/
theorem ptWindowHeader_toNat (we : Bool) (i : PtIndex) :
    (BitVec.ofBool we ++ 0#1 ++ 0b10#2 ++ 0b010#3 ++ i ++ 0b00#2).toNat =
      0x8000 * we.toNat + 0x2400 + 4 * i.toNat := by
  simp only [toNat_append_eq_add, BitVec.toNat_ofBool, BitVec.toNat_ofNat]
  omega

theorem ptIndexOf_ptWindowHeader (we : Bool) (i : PtIndex) :
    ptIndexOf (BitVec.ofBool we ++ 0#1 ++ 0b10#2 ++ 0b010#3 ++ i ++ 0b00#2) = i := by
  have hi := i.isLt
  apply BitVec.eq_of_toNat_eq
  rw [ptIndexOf_toNat, ptWindowHeader_toNat]
  omega

/-- Settles O28: by the header's number, a PT row hits; from index 82 the header is illegal. -/
theorem pulseTrainWindowDecodesByIndex : Obligations.PulseTrainWindowDecodesByIndex := by
  intro r we i hr
  have hi := i.isLt
  have hnum : r.header.toNat = 0x8000 * we.toNat + 0x2400 + 4 * i.toNat := hr ▸ ptWindowHeader_toNat we i
  have hidx : ptIndexOf r.header = i := hr ▸ ptIndexOf_ptWindowHeader we i
  refine ⟨fun h81 => ?_, fun h82 => ?_⟩
  · rw [decode_eq_byNumber, hidx]
    cases we with
    | false =>
      rw [Bool.toNat_false] at hnum
      iterate 9 rw [if_neg (by omega)]
      rw [if_pos (by omega)]
      rfl
    | true =>
      rw [Bool.toNat_true] at hnum
      iterate 10 rw [if_neg (by omega)]
      rw [if_pos (by omega)]
      rfl
  · rw [decode_isBusError_iff, ← Bool.not_eq_true, legal_iff_byNumber]
    cases we <;> simp only [Bool.toNat_false, Bool.toNat_true] at hnum <;> omega

/-! ## Reads -/

/-- The reads of the mapped registers (R51): the eight registers and the PT entries that exist. -/
def IsMappedRead (i : Instr) : Prop :=
  i ∈ [Instr.rdCtrl, .rdStatus, .rdThresh, .rdSum, .rdData, .rdChk, .rdReading, .rdConfig] ∨
    ∃ n : PtIndex, n.toNat ≤ 81 ∧ i = .rdPt n

/-- The word a mapped read answers (R162, R167, R175 to R181); 0 for what is no read. -/
def State.readWord (s : State) : Instr → Word
  | .rdStatus => statusWord s.status
  | .rdThresh => s.thresh
  | .rdSum => s.sum
  | .rdData => dataWord s.data
  | .rdChk => chkWord s.csum s.data
  | .rdReading => readingWord s.temp s.hum
  | .rdConfig => configWord s.params
  | .rdPt n => s.pt[n.toNat]?.getD 0
  | _ => 0

/-- A mapped read answers its word and does nothing else. -/
theorem exec_mappedRead {i : Instr} (hi : IsMappedRead i) (s : State) :
    exec i s = .next (s.respond .okay (s.readWord i)) := by
  obtain hreg | ⟨n, hn, rfl⟩ := hi
  · simp only [List.mem_cons, List.not_mem_nil, or_false] at hreg
    obtain rfl | rfl | rfl | rfl | rfl | rfl | rfl | rfl := hreg <;> rfl
  · exact if_pos hn

/-- No word read depends on the responses given. -/
theorem State.readWord_respond (resp : Resp) (w : Word) (s : State) (i : Instr) :
    (s.respond resp w).readWord i = s.readWord i := by
  cases i <;> rfl

theorem State.sameBlock_respond (resp : Resp) (w : Word) (s : State) : s.SameBlock (s.respond resp w) :=
  ⟨rfl, rfl, rfl, rfl, rfl, rfl, rfl, rfl, rfl⟩

/-- Settles O13: the state a read leaves differs in the responses alone, on which `State.readWord` does not depend. -/
theorem readsAreRepeatable : Obligations.ReadsAreRepeatable := by
  intro s i hi
  refine ⟨s.readWord i, s.respond .okay (s.readWord i), exec_mappedRead hi s, s.sameBlock_respond .okay _, rfl, rfl, ?_⟩
  rw [exec_mappedRead hi, State.readWord_respond]
  rfl

/-! ## Results that stay -/

/-- The two states show the same completed decode: the result registers and DONE, VALID and MISMATCH (R61). -/
def State.SameOutcome (s t : State) : Prop :=
  s.SameResults t ∧ t.status.done = s.status.done ∧ t.status.valid = s.status.valid ∧
    t.status.mismatch = s.status.mismatch

theorem State.sameOutcome_refl (s : State) : s.SameOutcome s := ⟨s.sameResults_refl, rfl, rfl, rfl⟩

/-- A CTRL write with neither START nor SRST clears error bits at most (R165). -/
theorem State.sameOutcome_ctrlCommands_clrerr (clrerr : Bool) (s : State) :
    s.SameOutcome (s.ctrlCommands false false clrerr) := by
  refine ⟨s.sameResults_ctrlCommands_without_srst false clrerr, ?_⟩
  simp [State.ctrlCommands_without_srst, Status.afterCommands]

/-- A PT write sets WERR at most (R166). -/
theorem State.sameOutcome_storeCounter (i : Nat) (w : Word) (s : State) : s.SameOutcome (s.storeCounter i w) := by
  refine ⟨s.sameResults_storeCounter i w, ?_⟩
  cases hb : s.status.busy with
  | false => simp [State.storeCounter_of_idle i w s hb]
  | true => simp [State.storeCounter_of_busy i w s hb]

/-- A transaction that is no CTRL write with START or SRST keeps the completed decode. -/
theorem exec_request_sameOutcome {r : Request} {s t : State} (ht : exec (decode r) s = .next t)
    (hctrl : ∀ start srst clrerr : Bool, decode r = .wrCtrl start srst clrerr → start = false ∧ srst = false) :
    s.SameOutcome t := by
  obtain ⟨-, -, w, rfl⟩ | ⟨start, srst, clrerr, hd, rfl⟩ | ⟨i, w, -, -, rfl⟩ | ⟨-, -, rfl⟩ :=
    exec_request_inversion r s t ht
  · exact s.sameOutcome_refl
  · obtain ⟨rfl, rfl⟩ := hctrl start srst clrerr hd
    exact s.sameOutcome_ctrlCommands_clrerr clrerr
  · exact s.sameOutcome_storeCounter i.toNat w
  · exact s.sameOutcome_refl

theorem Status.BusyClean.idle_of_done {st : Status} (h : st.BusyClean) (hdone : st.done = true) : st.busy = false := by
  cases hb : st.busy with
  | false => rfl
  | true =>
    obtain ⟨hnotdone, -⟩ := h hb
    exact absurd (hnotdone.symm.trans hdone) Bool.false_ne_true

/-- From DONE = 1 a step that is no reset assertion and no CTRL write with START or SRST keeps the completed decode: the
engine is IDLE by R30 (a), so its turn changes nothing. -/
theorem step_sameOutcome {s t : State} (hclean : s.status.BusyClean) (hdone : s.status.done = true)
    (hstep : step s = .next t) (hreset : ¬∃ rest, s.schedule = .reset :: rest)
    (hctrl : ∀ (r : Request) (rest : List Turn), s.schedule = .request r :: rest →
      ∀ start srst clrerr : Bool, decode r = .wrCtrl start srst clrerr → start = false ∧ srst = false) :
    s.SameOutcome t := by
  have hidle := hclean.idle_of_done hdone
  obtain ⟨-, rfl⟩ | ⟨r, rest, hs, hexec⟩ | ⟨rest, -, rfl⟩ | ⟨rest, hs, -⟩ := step_inversion s t hstep
  · rw [State.whileBusy_of_idle _ s hidle]
    exact s.sameOutcome_refl
  · exact exec_request_sameOutcome (s := { s with schedule := rest }) hexec (hctrl r rest hs)
  · rw [State.whileBusy_of_idle _ { s with schedule := rest } hidle]
    exact s.sameOutcome_refl
  · exact absurd ⟨rest, hs⟩ hreset

/-- Settles O49: `step_sameOutcome`, where DONE was 1 before. -/
theorem doneResultsStayUntilTheNextStart : Obligations.DoneResultsStayUntilTheNextStart := by
  intro s t hclean hdone hstep hreset hctrl
  have hcommands (r : Request) (rest : List Turn) (hs : s.schedule = .request r :: rest) (start srst clrerr : Bool)
      (hd : decode r = .wrCtrl start srst clrerr) : start = false ∧ srst = false := by
    have hnone : ¬(start = true ∨ srst = true) := fun h => hctrl ⟨r, rest, start, srst, clrerr, hs, hd, h⟩
    simpa using hnone
  obtain ⟨hresults, hd, houtcome⟩ := step_sameOutcome hclean hdone hstep hreset hcommands
  exact ⟨hresults, hd.trans hdone, houtcome⟩

end Sys2Proof.Machine
end

section
/-! PROOFS. The statements of 30_encoding.md: decoding an encoding (O23), encoding a decoded request (O24), disjoint rows
(O25), ignored WDATA bits (O27), words of the spec (O29), and the one response of every request (O52). -/

namespace Sys2Proof.Machine

open Sys2Proof

/-! ## Decoding an encoding -/

/-- A PT row's encoded header as a number (R73): WE, window and index. -/
theorem ptRowHeader_toNat (we : Bool) (i : PtIndex) :
    (ptHeader (if we then rowWrPt else rowRdPt) i).toNat = 0x8000 * we.toNat + 0x2400 + 4 * i.toNat := by
  cases we with
  | false => exact Laws.EncodedHeader.ptHeader_toNat 18 0x2400 i (by decide)
  | true => exact Laws.EncodedHeader.ptHeader_toNat 82 0xA400 i (by decide)

/-- An encoded PT access of a counter that exists decodes to itself, as its header is in the PT window. -/
theorem decode_ptRowHeader (we : Bool) {i : PtIndex} (w : Word) (hi : i.toNat ≤ 81) :
    decode ⟨ptHeader (if we then rowWrPt else rowRdPt) i, w⟩ = if we then .wrPt i w else .rdPt i := by
  have hwindow : ptHeader (if we then rowWrPt else rowRdPt) i =
      BitVec.ofBool we ++ 0#1 ++ 0b10#2 ++ 0b010#3 ++ i ++ 0b00#2 :=
    BitVec.eq_of_toNat_eq ((ptRowHeader_toNat we i).trans (ptWindowHeader_toNat we i).symm)
  exact (pulseTrainWindowDecodesByIndex ⟨_, w⟩ we i hwindow).1 hi

/-- The command bits of a CTRL write (R72). -/
theorem decode_ctrlWrite (w : Word) : decode ⟨0xA000, w⟩ = .wrCtrl (w.getLsbD 0) (w.getLsbD 1) (w.getLsbD 2) := by
  simp [decode_eq_byNumber]

theorem ctrlWord_getLsbD : ∀ start srst clrerr : Bool,
    (ctrlWord start srst clrerr).getLsbD 0 = start ∧ (ctrlWord start srst clrerr).getLsbD 1 = srst ∧
      (ctrlWord start srst clrerr).getLsbD 2 = clrerr := by decide

/-- An encoding decodes to the instruction it encodes, with every operand. -/
theorem decode_encode {i : Instr} {r : Request} (hwf : i.wellFormed = true) (h : encode i = some r) : decode r = i := by
  cases i with
  | rdCtrl | rdStatus | rdThresh | rdSum | rdData | rdChk | rdReading | rdConfig =>
    cases h
    rfl
  | wrCtrl start srst clrerr =>
    cases h
    obtain ⟨hstart, hsrst, hclrerr⟩ := ctrlWord_getLsbD start srst clrerr
    exact (decode_ctrlWrite _).trans (by rw [hstart, hsrst, hclrerr])
  | rdPt n =>
    cases h
    exact decode_ptRowHeader false 0 (of_decide_eq_true hwf)
  | wrPt n w =>
    cases h
    exact decode_ptRowHeader true w (of_decide_eq_true hwf)
  | busError q =>
    cases h
    exact (decode_isBusError_iff r).mpr ((Bool.not_eq_true' _).mp hwf)
  | engThreshold | engClassify | engValidate | engComplete => cases h

/-- The engine steps alone have no encoding (R77). -/
theorem encode_eq_none_iff (i : Instr) : encode i = none ↔ i.isEngineStep = true := by
  cases i <;> simp [encode, Instr.isEngineStep]

/-- Settles O23: an instruction without an encoding is an engine step; any other decodes back by `decode_encode`. -/
theorem decodingAnEncodingGivesTheInstruction : Obligations.DecodingAnEncodingGivesTheInstruction := by
  intro i hwf
  cases henc : encode i with
  | none => exact .inl ⟨(encode_eq_none_iff i).mp henc, rfl⟩
  | some r =>
    have hengine : i.isEngineStep ≠ true := by simp [← encode_eq_none_iff, henc]
    exact .inr ⟨Bool.eq_false_iff.mpr hengine, r, rfl, decode_encode hwf henc⟩

/-! ## Encoding a decoded request -/

/-- WE = 1 in terms of the header's number (R70). -/
theorem writeBit_iff_byNumber (h : Header) : h.getLsbD 15 = true ↔ 0x8000 ≤ h.toNat := by
  rw [← BitVec.msb_eq_getLsbD_last, BitVec.msb_eq_decide, decide_eq_true_eq]

/-- A decoded request encodes with its own header; of WDATA a legal read keeps nothing (R72). -/
theorem encode_decode (r : Request) : ∃ w : Word, encode (decode r) = some ⟨r.header, w⟩ ∧
    (r.header.legal = true → r.header.getLsbD 15 = false → w = 0) := by
  obtain h | h | h | h | h | h | h | h | h | h | h | h := decode_inversion r
  case inr.inl => -- WR_CTRL
    obtain ⟨hheader, hd⟩ := h
    have hwrite : r.header.getLsbD 15 = true := by rw [hheader]; rfl
    exact ⟨_, by rw [hd, hheader]; rfl, fun _ hread => absurd (hread.symm.trans hwrite) Bool.false_ne_true⟩
  case inr.inr.inr.inr.inr.inr.inr.inr.inr.inl => -- RD_PT
    obtain ⟨-, hnum, hd⟩ := h
    have hheader : r.header = ptHeader rowRdPt (ptIndexOf r.header) :=
      BitVec.eq_of_toNat_eq (hnum.trans (ptRowHeader_toNat false _).symm)
    exact ⟨0, by rw [hd, encode, ← hheader], fun _ _ => rfl⟩
  case inr.inr.inr.inr.inr.inr.inr.inr.inr.inr.inl => -- WR_PT
    obtain ⟨-, hnum, hd⟩ := h
    have hheader : r.header = ptHeader rowWrPt (ptIndexOf r.header) :=
      BitVec.eq_of_toNat_eq (hnum.trans (ptRowHeader_toNat true _).symm)
    have hwrite : r.header.getLsbD 15 = true := (writeBit_iff_byNumber _).mpr (by omega)
    exact ⟨_, by rw [hd, encode, ← hheader], fun _ hread => absurd (hread.symm.trans hwrite) Bool.false_ne_true⟩
  case inr.inr.inr.inr.inr.inr.inr.inr.inr.inr.inr => -- BUS_ERROR
    obtain ⟨hillegal, hd⟩ := h
    exact ⟨r.wdata, by rw [hd]; rfl, fun hlegal _ => absurd (hillegal.symm.trans hlegal) Bool.false_ne_true⟩
  all_goals -- the register reads
    obtain ⟨hheader, hd⟩ := h
    exact ⟨0, by rw [hd, hheader]; rfl, fun _ _ => rfl⟩

/-- Settles O24: `encode_decode` for the header, `decode_encode` for the meaning. -/
theorem encodingADecodedRequestKeepsItsHeader : Obligations.EncodingADecodedRequestKeepsItsHeader := by
  intro r
  have hwf := decode_wellFormed r
  obtain ⟨w, henc, -⟩ := encode_decode r
  exact ⟨hwf, ⟨r.header, w⟩, henc, rfl, decode_encode hwf henc⟩

/-! ## Disjoint rows -/

/-- Two rows that one header hits agree in the bits that both their masks keep. -/
theorem HeaderRow.agree_of_hits {a b : HeaderRow} {h : Header} (ha : a.hits h = true) (hb : b.hits h = true) :
    a.pattern &&& b.mask = b.pattern &&& a.mask := by
  rw [HeaderRow.hits, beq_iff_eq] at ha hb
  rw [← ha, ← hb, BitVec.and_assoc, BitVec.and_assoc, BitVec.and_comm a.mask]

/-- No two rows of R73's table agree in the bits that both their masks keep. -/
theorem headerRows_differ_under_masks :
    ∀ a ∈ headerRows, ∀ b ∈ headerRows, a.pattern &&& b.mask = b.pattern &&& a.mask → a = b := by decide

/-- Settles O25: two rows with a common header would agree under both masks. -/
theorem opcodeRowsAreDisjoint : Obligations.OpcodeRowsAreDisjoint :=
  fun _ a b ha hb hita hitb => headerRows_differ_under_masks a ha b hb (HeaderRow.agree_of_hits hita hitb)

/-! ## Ignored WDATA bits -/

/-- A legal read decodes as with WDATA = 0, which is its encoding. -/
theorem decode_legalRead {h : Header} (hlegal : h.legal = true) (hread : h.getLsbD 15 = false) (w : Word) :
    decode ⟨h, w⟩ = decode ⟨h, 0⟩ := by
  obtain ⟨w₀, henc, hzero⟩ := encode_decode ⟨h, w⟩
  obtain rfl : w₀ = 0 := hzero hlegal hread
  exact (decode_encode (decode_wellFormed _) henc).symm

theorem getLsbD_eq_of_mod_two_pow_eq {n k : Nat} {w w' : Word} (h : w.toNat % 2 ^ n = w'.toNat % 2 ^ n) (hk : k < n) :
    w.getLsbD k = w'.getLsbD k := by
  have hbit := congrArg (Nat.testBit · k) h
  simpa only [Nat.testBit_mod_two_pow, hk, decide_true, Bool.true_and, BitVec.testBit_toNat] using hbit

/-- A PT write looks at WDATA[CNT_W−1:0] alone (R72). -/
theorem State.storeCounter_congr {s : State} (i : Nat) {w w' : Word}
    (h : w.toNat % 2 ^ s.params.cntW = w'.toNat % 2 ^ s.params.cntW) : s.storeCounter i w = s.storeCounter i w' := by
  rw [State.storeCounter, State.storeCounter, ptValue_eq_ofNat, ptValue_eq_ofNat, h]

/-- Settles O27: one clause per lemma: legal reads, the three command bits, the stored counter. -/
theorem reservedBitsOfLegalRequestsAreIgnored : Obligations.ReservedBitsOfLegalRequestsAreIgnored := by
  refine ⟨fun h w w' hlegal hread => ?_, fun w w' h => ?_, fun s i w w' h => ?_⟩
  · rw [decode_legalRead hlegal hread w, decode_legalRead hlegal hread w']
  · have hbit {k : Nat} (hk : k < 3) : w.getLsbD k = w'.getLsbD k := getLsbD_eq_of_mod_two_pow_eq h hk
    rw [decode_ctrlWrite, decode_ctrlWrite, hbit (by decide), hbit (by decide), hbit (by decide)]
  · rw [exec, exec, execWrPt, execWrPt, State.storeCounter_congr i.toNat h]

/-! ## Words of the spec -/

/-- Settles O29: seventeen closed words, decoded. -/
theorem wordsOfTheSpecDecode : Obligations.WordsOfTheSpecDecode := by
  unfold Obligations.WordsOfTheSpecDecode
  decide

/-! ## One response -/

/-- A host turn performs the decoded request (R160). -/
theorem step_of_request {s : State} {r : Request} {rest : List Turn} (hs : s.schedule = .request r :: rest) :
    step s = exec (decode r) { s with schedule := rest } := by
  rw [step, hs]

/-- A transaction gives one response and takes no turn; a write's RDATA and an ERR's RDATA is 0 (R71). -/
theorem exec_request_response {r : Request} {s t : State} (ht : exec (decode r) s = .next t) :
    ∃ answer : Response, t.schedule = s.schedule ∧ t.responses = answer :: s.responses ∧
      (r.header.getLsbD 15 = true → answer.rdata = 0) ∧ (answer.resp = .err → answer.rdata = 0) := by
  obtain ⟨hread, -, w, rfl⟩ | ⟨start, srst, clrerr, -, rfl⟩ | ⟨i, w, -, -, rfl⟩ | ⟨-, -, rfl⟩ :=
    exec_request_inversion r s t ht
  · exact ⟨⟨.okay, w⟩, rfl, rfl, fun hwrite => absurd (hread.symm.trans hwrite) Bool.false_ne_true, nofun⟩
  · exact ⟨⟨.okay, 0⟩, by simp, by simp, fun _ => rfl, fun _ => rfl⟩
  · exact ⟨⟨.okay, 0⟩, by simp, by simp, fun _ => rfl, fun _ => rfl⟩
  · exact ⟨⟨.err, 0⟩, rfl, rfl, fun _ => rfl, fun _ => rfl⟩

/-- Settles O52: the request's instruction answers a next state, with the response of `exec_request_response`. -/
theorem everyRequestGetsOneResponse : Obligations.EveryRequestGetsOneResponse := by
  intro s r rest hs
  obtain ⟨t, ht⟩ := exec_answers (decode r) { s with schedule := rest }
  obtain ⟨answer, hanswer⟩ := exec_request_response ht
  exact ⟨t, answer, (step_of_request hs).trans ht, hanswer⟩

end Sys2Proof.Machine
end

section
/-! PROOFS. The statements of 40_threshold_decoder.md: the threshold stage (O30), the two threshold modes (O31), EXACT mode
and a rounded average (O32) and the order of the stages (O38). -/

namespace Sys2Proof.Machine

open Sys2Proof

/-! ## The engine rows while BUSY -/

theorem exec_engThreshold_of_busy {s : State} (h : s.status.busy = true) :
    exec .engThreshold s = .next s.thresholdStage :=
  congrArg Host.Outcome.next (State.whileBusy_of_busy _ s h)

theorem exec_engClassify_of_busy {s : State} (h : s.status.busy = true) :
    exec .engClassify s = .next s.classifyStage :=
  congrArg Host.Outcome.next (State.whileBusy_of_busy _ s h)

theorem exec_engValidate_of_busy {s : State} (h : s.status.busy = true) :
    exec .engValidate s = .next s.validateStage :=
  congrArg Host.Outcome.next (State.whileBusy_of_busy _ s h)

theorem exec_engComplete_of_busy {s : State} (h : s.status.busy = true) :
    exec .engComplete s = .next s.completeDecode :=
  congrArg Host.Outcome.next (State.whileBusy_of_busy _ s h)

/-! ## The threshold stage -/

/-- Settles O30: the stage's two registers hold the exact sum and quotient, as both fit in their widths. -/
theorem thresholdStageSumsAndDivides : Obligations.ThresholdStageSumsAndDivides := by
  intro s hbusy hlegal hwidths
  have hsum := s.thresholdStage_sum_toNat hlegal hwidths
  have hthresh := s.thresholdStage_thresh_toNat hlegal hwidths
  refine ⟨s.thresholdStage, exec_engThreshold_of_busy hbusy, rfl, ?_, ?_, ?_, ?_⟩
  · rw [hsum, s.lowSum_eq_dataLowSum]
  · rw [hthresh, s.lowSum_eq_dataLowSum]
  · exact hsum ▸ s.lowSum_lt hwidths
  · exact hthresh ▸ s.quotient_lt hwidths

/-! ## The two threshold modes -/

/-- INT mode's predicate (R102). -/
theorem meets_iff_of_int {p : Params} (hp : p.mode = .int) (S h : Nat) :
    meets p S h = true ↔ S / p.divisor.toNat ≤ h := by
  simp [meets, hp]

/-- EXACT mode's predicate (R102). -/
theorem meets_iff_of_exact {p : Params} (hp : p.mode = .exact) (S h : Nat) :
    meets p S h = true ↔ S ≤ h * p.divisor.toNat := by
  simp [meets, hp]

theorem divisor_pos (d : Divisor) : 0 < d.toNat := Nat.lt_of_lt_of_le (by decide) (divisor_ge_forty d)

/-- The floored quotient reaches `h` where `h × D` falls short of `S`: only at `h = S div D`, and only with a remainder. -/
theorem div_le_and_mul_lt_iff {S h D : Nat} (hD : 0 < D) : S / D ≤ h ∧ h * D < S ↔ S % D ≠ 0 ∧ h = S / D := by
  have hdiv : D * (S / D) + S % D = S := Nat.div_add_mod S D
  have hcomm : S / D * D = D * (S / D) := Nat.mul_comm _ _
  constructor
  · rintro ⟨hle, hlt⟩
    have hge : h ≤ S / D := (Nat.le_div_iff_mul_le hD).mpr hlt.le
    obtain rfl : h = S / D := le_antisymm hge hle
    exact ⟨by omega, rfl⟩
  · rintro ⟨hrem, rfl⟩
    exact ⟨le_rfl, by omega⟩

/-- Settles O31: EXACT implies INT, so the modes differ where INT holds alone, which is `div_le_and_mul_lt_iff`. -/
theorem thresholdModesDifferOnlyAtTheFlooredQuotient : Obligations.ThresholdModesDifferOnlyAtTheFlooredQuotient := by
  refine ⟨rfl, fun w S h d => ?_⟩
  have hint : meets ⟨w, d, .int⟩ S h = true ↔ S / d.toNat ≤ h := meets_iff_of_int rfl S h
  have hexact : meets ⟨w, d, .exact⟩ S h = true ↔ S ≤ h * d.toNat := meets_iff_of_exact rfl S h
  have himp : S ≤ h * d.toNat → S / d.toNat ≤ h := fun hle => Nat.div_le_of_le_mul (Nat.mul_comm h _ ▸ hle)
  refine ⟨hint, hexact, ?_⟩
  rw [ne_eq, Bool.eq_iff_iff, hint, hexact, ← div_le_and_mul_lt_iff (divisor_pos d), ← Nat.not_le]
  tauto

/-! ## EXACT mode and a rounded average -/

/-- EXACT mode compares `h` with the rational average (R102). -/
theorem meets_iff_exactAverage_le {p : Params} (hp : p.mode = .exact) (S h : Nat) :
    meets p S h = true ↔ p.exactAverage S ≤ (h : ℚ) := by
  have hD : (0 : ℚ) < p.divisor.toNat := Nat.cast_pos.mpr (divisor_pos _)
  rw [meets_iff_of_exact hp, Params.exactAverage, div_le_iff₀ hD]
  exact_mod_cast Iff.rfl

/-- An average that is no integer is at least 1/41 away from every `h` (R103). -/
theorem exactAverage_gap {p : Params} {S : Nat} (hrem : ¬p.divisor.toNat ∣ S) (h : Nat) :
    1 / 41 ≤ |p.exactAverage S - h| := by
  have hD : (0 : ℚ) < p.divisor.toNat := Nat.cast_pos.mpr (divisor_pos _)
  have hD41 : (p.divisor.toNat : ℚ) ≤ 41 := by exact_mod_cast divisor_le_forty_one p.divisor
  have hne : (S : ℤ) - h * p.divisor.toNat ≠ 0 := fun heq =>
    hrem (Dvd.intro_left h (by exact_mod_cast (sub_eq_zero.mp heq).symm))
  have hone : (1 : ℚ) ≤ |(S : ℚ) - h * p.divisor.toNat| := by exact_mod_cast Int.one_le_abs hne
  calc (1 : ℚ) / 41 ≤ 1 / p.divisor.toNat := one_div_le_one_div_of_le hD hD41
    _ ≤ |(S : ℚ) - h * p.divisor.toNat| / p.divisor.toNat := by gcongr
    _ = |p.exactAverage S - h| := by
      rw [Params.exactAverage, div_sub' hD.ne', abs_div, abs_of_pos hD, mul_comm]

/-- A number closer to `a` than `c` is lies on `a`'s side of `c`. -/
theorem le_iff_le_of_abs_sub_lt {a c q : ℚ} (hclose : |q - a| < |a - c|) : a ≤ c ↔ q ≤ c := by
  rw [abs_sub_lt_iff] at hclose
  rcases le_total a c with hac | hca
  · rw [abs_of_nonpos (sub_nonpos.mpr hac)] at hclose
    exact iff_of_true hac (by linarith)
  · rw [abs_of_nonneg (sub_nonneg.mpr hca)] at hclose
    exact iff_of_false (by linarith) (by linarith)

/-- Settles O32: where D divides S, `q` is the average; elsewhere the average is further from `h` than from `q`. -/
theorem exactModeAgreesWithARoundedAverage : Obligations.ExactModeAgreesWithARoundedAverage := by
  intro p S h q hp _ hexact hclose
  rw [meets_iff_exactAverage_le hp]
  by_cases hdvd : p.divisor.toNat ∣ S
  · rw [hexact hdvd]
  · apply le_iff_le_of_abs_sub_lt
    calc |q - p.exactAverage S| ≤ 1 / 2 ^ 27 := hclose
      _ < 1 / 41 := by norm_num
      _ ≤ |p.exactAverage S - h| := exactAverage_gap hdvd h

/-! ## The order of the stages -/

/-- Settles O38: the first two stages keep STATUS, so each row finds the engine BUSY. -/
theorem completionIsTheThreeStagesInOrder : Obligations.CompletionIsTheThreeStagesInOrder := by
  intro s hbusy
  have hsummed : s.thresholdStage.status.busy = true := hbusy
  have hclassified : s.thresholdStage.classifyStage.status.busy = true := hbusy
  exact ⟨s.thresholdStage, s.thresholdStage.classifyStage, s.thresholdStage.classifyStage.validateStage,
    exec_engThreshold_of_busy hbusy, exec_engClassify_of_busy hsummed, exec_engValidate_of_busy hclassified,
    exec_engComplete_of_busy hbusy⟩

end Sys2Proof.Machine
end

section
/-! PROOFS. The statements of 41_bit_classifier.md: a counter equal to the threshold (O33), the classifier stage (O34) and
the packing loop's initial contents (O35). -/

namespace Sys2Proof.Machine

open Sys2Proof

/-! ## A counter equal to the threshold -/

/-- EXACT mode's other side: below `S / D` a counter classifies as 0 (R102). -/
theorem meets_eq_false_iff_of_exact {p : Params} (hp : p.mode = .exact) (S h : Nat) :
    meets p S h = false ↔ h * p.divisor.toNat < S := by
  rw [← Bool.not_eq_true, meets_iff_of_exact hp, Nat.not_le]

/-- Settles O33: at the threshold both predicates are equalities; the floored quotient of a division with a remainder falls
short of `S` by `div_le_and_mul_lt_iff`. -/
theorem aCounterEqualToTheThresholdIsOne : Obligations.ACounterEqualToTheThresholdIsOne := by
  intro p S pt n
  unfold classifyBit
  refine ⟨fun hint heq => ?_, fun hexact heq => ?_, fun hexact heq hrem => ?_⟩
  · exact (meets_iff_of_int hint S _).mpr heq.ge
  · exact (meets_iff_of_exact hexact S _).mpr heq.ge
  · exact (meets_eq_false_iff_of_exact hexact S _).mpr ((div_le_and_mul_lt_iff (divisor_pos _)).mpr ⟨hrem, heq⟩).2

/-! ## The classifier stage -/

/-- Settles O34: the row's effect is the classifier stage, whose bytes are those PT encodes. -/
theorem classifierPacksEachByteMostSignificantFirst : Obligations.ClassifierPacksEachByteMostSignificantFirst :=
  fun s hbusy => ⟨s.classifyStage, exec_engClassify_of_busy hbusy, rfl, s.classifyStage_encodes⟩

/-! ## The packing loop -/

/-- Settles O35: each of the 40 bits is a data bit, whatever the byte registers held (`packUpTo_getLsbD`). -/
theorem packingForgetsTheInitialBytes : Obligations.PackingForgetsTheInitialBytes := by
  intro bits b b'
  apply DataBytes.ext_of_bits
  intro j m
  have hbit (init : DataBytes) : (packUpTo bits init 40)[j].getLsbD (7 - m) = bits (8 * j + m) :=
    packUpTo_getLsbD bits init j m j.isLt m.isLt
  rw [hbit b, hbit b']

end Sys2Proof.Machine
end

section
/-! PROOFS. The statements of 42_checksum_validator.md: the validator stage (O36), the round trip of a pulse train (O41) and
flipped bits (O42). -/

namespace Sys2Proof.Machine

open Sys2Proof

/-! ## The validator stage -/

/-- VALIDATE-SUCCESS (R142), whole. -/
theorem State.validateStage_of_checksum_eq {s : State} (h : checksum s.data = s.data[4]) : s.validateStage =
    { s with
      csum := checksum s.data, hum := s.data[0], temp := s.data[2]
      status := { s.status with valid := true, mismatch := false } } := by
  simp [State.validateStage, (checksumOk_iff _).mpr h, Status.validated]

/-- VALIDATE-MISMATCH (R143), whole. -/
theorem State.validateStage_of_checksum_ne {s : State} (h : checksum s.data ≠ s.data[4]) : s.validateStage =
    { s with
      csum := checksum s.data, hum := 0, temp := 0
      status := { s.status with valid := false, mismatch := true } } := by
  have hok : checksumOk s.data = false := by rwa [← Bool.not_eq_true, checksumOk_iff]
  simp [State.validateStage, hok, Status.validated]

/-- Settles O36: the row's effect is the validator stage, with one equation for each outcome. -/
theorem validatorChecksTheFifthByte : Obligations.ValidatorChecksTheFifthByte := by
  intro s hbusy
  refine ⟨s.validateStage, exec_engValidate_of_busy hbusy, rfl, ?_, fun heq => ?_, fun hne => ?_⟩
  · rw [State.validateStage_csum, checksum_toNat]
  · rw [State.validateStage_of_checksum_eq heq]
    exact ⟨rfl, rfl, rfl⟩
  · rw [State.validateStage_of_checksum_ne hne]
    exact ⟨rfl, rfl, rfl⟩

/-! ## The completion of a pulse train whose bytes are known -/

/-- A right fifth byte, as R147 writes it. -/
theorem checksum_eq_iff_toNat (d : DataBytes) :
    checksum d = d[4] ↔ d[4].toNat = (d[0].toNat + d[1].toNat + d[2].toNat + d[3].toNat) % 256 := by
  rw [← BitVec.toNat_inj, checksum_toNat, eq_comm]

/-- R172 with R142's outcome, for a pulse train whose bytes are known. -/
theorem State.completeDecode_of_checksum_eq {s : State} {b : DataBytes} (hpulses : s.PulsesEncode b)
    (h : checksum b = b[4]) : s.completeDecode =
    { s with
      sum := s.thresholdStage.sum, thresh := s.thresholdStage.thresh
      data := b, csum := checksum b, hum := b[0], temp := b[2]
      status := { s.status with busy := false, done := true, valid := true, mismatch := false } } := by
  obtain rfl := s.classifyStage_data_of_encodes b hpulses
  exact congrArg (State.mapStatus Status.finished)
    (State.validateStage_of_checksum_eq (s := s.thresholdStage.classifyStage) h)

/-- R172 with R143's outcome, for a pulse train whose bytes are known. -/
theorem State.completeDecode_of_checksum_ne {s : State} {b : DataBytes} (hpulses : s.PulsesEncode b)
    (h : checksum b ≠ b[4]) : s.completeDecode =
    { s with
      sum := s.thresholdStage.sum, thresh := s.thresholdStage.thresh
      data := b, csum := checksum b, hum := 0, temp := 0
      status := { s.status with busy := false, done := true, valid := false, mismatch := true } } := by
  obtain rfl := s.classifyStage_data_of_encodes b hpulses
  exact congrArg (State.mapStatus Status.finished)
    (State.validateStage_of_checksum_ne (s := s.thresholdStage.classifyStage) h)

/-- Settles O41: the completion's data are the encoded bytes, whose checksum is right. -/
theorem aValidPulseTrainGivesItsReading : Obligations.AValidPulseTrainGivesItsReading := by
  intro s b0 b1 b2 b3 b4 hbusy hright hpulses
  have hsum := (checksum_eq_iff_toNat #v[b0, b1, b2, b3, b4]).mpr hright
  refine ⟨s.completeDecode, exec_engComplete_of_busy hbusy, ?_⟩
  rw [State.completeDecode_of_checksum_eq hpulses hsum]
  exact ⟨rfl, rfl, rfl, rfl, rfl, rfl⟩

/-! ## Flipped bits -/

/-- The checksum in byte arithmetic, which wraps as R140's `mod 256` does. -/
theorem checksum_eq_add (d : DataBytes) : checksum d = d[0] + d[1] + d[2] + d[3] := by
  apply BitVec.eq_of_toNat_eq
  simp [checksum_toNat]

/-- R148 without the bits: to change one of the five bytes, whichever and to whatever, makes a right checksum wrong, because
the four other bytes of the equation cancel. -/
theorem checksum_set_ne {b : DataBytes} (hright : checksum b = b[4]) (j : Fin 5) {x : Byte} (hx : x ≠ b[j]) :
    checksum (b.set j.val x) ≠ (b.set j.val x)[4] := by
  rw [checksum_eq_add] at hright ⊢
  intro hstill
  apply hx
  match j with
  | 0 | 1 | 2 | 3 =>
    simpa [← hright] using hstill
  | 4 =>
    simpa [hright] using hstill.symm

theorem xor_twoPow_ne {w k : Nat} (hk : k < w) (x : BitVec w) : x ^^^ BitVec.twoPow w k ≠ x := by
  intro h
  have hbit := congrArg (BitVec.getLsbD · k) h
  simp [hk] at hbit

/-- To set a clear bit 0 adds 1, without a carry. -/
theorem xor_one_eq_add_one {w : Nat} {x : BitVec w} (h : x.getLsbD 0 = false) : x ^^^ 1#w = x + 1#w := by
  have hdisjoint : x &&& 1#w = 0#w := by
    apply BitVec.eq_of_getLsbD_eq
    intro i _
    cases i <;> simp [h]
  rw [BitVec.add_eq_or_of_and_eq_zero x 1#w hdisjoint]
  apply BitVec.eq_of_getLsbD_eq
  intro i _
  cases i <;> simp [h]

/-- Bit 0 of byte 0 set and bit 0 of byte 1 cleared leave the checksum as it was. -/
theorem checksum_two_flips {b : DataBytes} (h0 : b[0].getLsbD 0 = false) (h1 : b[1].getLsbD 0 = true) :
    checksum #v[b[0] ^^^ 1, b[1] ^^^ 1, b[2], b[3], b[4]] = checksum b := by
  have hset : b[0] ^^^ 1 = b[0] + 1 := xor_one_eq_add_one h0
  have hcleared : (b[1] ^^^ 1) + 1 = b[1] :=
    calc (b[1] ^^^ 1) + 1 = b[1] ^^^ 1 ^^^ 1 := (xor_one_eq_add_one (by simp [h1])).symm
      _ = b[1] := by simp
  rw [checksum_eq_add, checksum_eq_add]
  calc (b[0] ^^^ 1) + (b[1] ^^^ 1) + b[2] + b[3]
      _ = b[0] + ((b[1] ^^^ 1) + 1) + b[2] + b[3] := by rw [hset]; ring
      _ = b[0] + b[1] + b[2] + b[3] := by rw [hcleared]

/-- Settles O42: one flip changes one byte (`checksum_set_ne`); the two flips keep the checksum. -/
theorem aSingleBitFlipIsAlwaysDetected : Obligations.ASingleBitFlipIsAlwaysDetected := by
  intro s b hbusy hright
  have hsum : checksum b = b[4] := (checksum_eq_iff_toNat b).mpr hright
  refine ⟨fun j k hpulses => ?_, fun h0 h1 hpulses => ?_⟩
  · have hwrong := checksum_set_ne hsum j (xor_twoPow_ne k.isLt b[j])
    refine ⟨s.completeDecode, exec_engComplete_of_busy hbusy, ?_⟩
    rw [State.completeDecode_of_checksum_ne hpulses hwrong]
    exact ⟨rfl, rfl, rfl, rfl, rfl⟩
  · refine ⟨s.completeDecode, exec_engComplete_of_busy hbusy, ?_⟩
    rw [State.completeDecode_of_checksum_eq hpulses ((checksum_two_flips h0 h1).trans hsum)]
    exact ⟨rfl, rfl⟩

end Sys2Proof.Machine
end

section
/-! PROOFS. The statements of 43_host_interface.md: what each register read answers (O5 to O10, O12), what a CTRL write, a PT
write and an illegal request do (O14 to O18, O20, O26), the engine's rows (O37, O39), the turns of a step (O50, O51, O54) and
runs of the host's requests (O55 to O57). -/

namespace Sys2Proof.Machine

open Sys2Proof

/-! ## The words a read answers, field by field (R8, R51) -/

/-- STATUS reads as R175 writes it. -/
theorem statusWord_eq_append (st : Status) :
    statusWord st = 0#22 ++ BitVec.ofBool st.aerr ++ BitVec.ofBool st.werr ++ 0#4 ++ BitVec.ofBool st.mismatch ++
      BitVec.ofBool st.valid ++ BitVec.ofBool st.done ++ BitVec.ofBool st.busy := by
  apply BitVec.eq_of_toNat_eq
  have := st.busy.toNat_lt
  have := st.done.toNat_lt
  have := st.valid.toNat_lt
  have := st.mismatch.toNat_lt
  have := st.werr.toNat_lt
  have := st.aerr.toNat_lt
  simp only [statusWord, toNat_append_eq_add, BitVec.toNat_ofBool, BitVec.toNat_ofNat]
  omega

theorem dataWord_eq_append (d : DataBytes) : dataWord d = d[3] ++ d[2] ++ d[1] ++ d[0] := by
  apply BitVec.eq_of_toNat_eq
  simp only [dataWord, toNat_append_eq_add, BitVec.toNat_ofNat]
  omega

theorem chkWord_eq_append (csum : Byte) (d : DataBytes) : chkWord csum d = 0#16 ++ csum ++ d[4] := by
  apply BitVec.eq_of_toNat_eq
  simp only [chkWord, toNat_append_eq_add, BitVec.toNat_ofNat]
  omega

theorem readingWord_eq_append (temp hum : Byte) : readingWord temp hum = 0#16 ++ temp ++ hum := by
  apply BitVec.eq_of_toNat_eq
  simp only [readingWord, toNat_append_eq_add, BitVec.toNat_ofNat]
  omega

/-- The fields of a register with two bytes at the bottom (CHK and READING). -/
theorem twoByteWord_fields (x y : Byte) :
    (0#16 ++ x ++ y).extractLsb' 0 8 = y ∧ (0#16 ++ x ++ y).extractLsb' 8 8 = x ∧
      (0#16 ++ x ++ y).extractLsb' 16 16 = 0 := by
  refine ⟨BitVec.extractLsb'_append_eq_right, ?_, ?_⟩
  · rw [BitVec.extractLsb'_append_eq_of_le le_rfl]
    exact BitVec.extractLsb'_append_eq_right
  · rw [BitVec.extractLsb'_append_eq_of_le (by decide)]
    exact BitVec.extractLsb'_append_eq_left

theorem dataWord_byte (d : DataBytes) (j : Fin 4) : (dataWord d).extractLsb' (8 * j.val) 8 = d[j.val] := by
  rw [dataWord_eq_append]
  match j with
  | 0 => exact BitVec.extractLsb'_append_eq_right
  | 1 =>
    rw [BitVec.extractLsb'_append_eq_of_le (by decide)]
    exact BitVec.extractLsb'_append_eq_right
  | 2 =>
    rw [BitVec.extractLsb'_append_eq_of_le (by decide), BitVec.extractLsb'_append_eq_of_le (by decide)]
    exact BitVec.extractLsb'_append_eq_right
  | 3 =>
    rw [BitVec.extractLsb'_append_eq_of_le (by decide), BitVec.extractLsb'_append_eq_of_le (by decide)]
    exact BitVec.extractLsb'_append_eq_left

theorem getLsbD_eq_false_of_toNat_lt {w k n : Nat} {x : BitVec w} (hx : x.toNat < 2 ^ k) (hn : k ≤ n) :
    x.getLsbD n = false :=
  Nat.testBit_lt_two_pow (hx.trans_le (Nat.pow_le_pow_right (by decide) hn))

/-! ## Register reads -/

/-- Settles O5: the read's whole effect is its response. -/
theorem readingCtrlAnswersZero : Obligations.ReadingCtrlAnswersZero := fun _ => rfl

/-- R30 (a) to (c) leave four possibilities for BUSY, DONE, VALID and MISMATCH: reset, BUSY, VALID and MISMATCH. -/
theorem Status.outcome_cases {st : Status} (hclean : st.BusyClean) (hneeds : st.OutcomeNeedsDone)
    (hexclusive : st.OutcomeExclusive) :
    (st.busy = false ∧ st.done = false ∧ st.valid = false ∧ st.mismatch = false) ∨
    (st.busy = true ∧ st.done = false ∧ st.valid = false ∧ st.mismatch = false) ∨
    (st.busy = false ∧ st.done = true ∧ st.valid = true ∧ st.mismatch = false) ∨
    (st.busy = false ∧ st.done = true ∧ st.valid = false ∧ st.mismatch = true) := by
  cases hdone : st.done with
  | false =>
    obtain ⟨hvalid, hmismatch⟩ := hneeds hdone
    cases hbusy : st.busy <;> simp [hvalid, hmismatch]
  | true =>
    have hidle := hclean.idle_of_done hdone
    have hone := hexclusive hdone
    cases hvalid : st.valid <;> simp [hidle, hone, hvalid]

/-- STATUS bits 3:0 as a number. -/
theorem statusWord_toNat_mod (st : Status) : (statusWord st).toNat % 16 =
    st.busy.toNat + 2 * st.done.toNat + 4 * st.valid.toNat + 8 * st.mismatch.toNat := by
  have := st.busy.toNat_lt
  have := st.done.toNat_lt
  have := st.valid.toNat_lt
  have := st.mismatch.toNat_lt
  rw [statusWord, BitVec.toNat_ofNat]
  omega

/-- The bit of each STATUS field (R175). -/
theorem statusWord_fields (st : Status) :
    (statusWord st).getLsbD 0 = st.busy ∧ (statusWord st).getLsbD 1 = st.done ∧ (statusWord st).getLsbD 2 = st.valid ∧
      (statusWord st).getLsbD 3 = st.mismatch ∧ (statusWord st).getLsbD 8 = st.werr ∧
      (statusWord st).getLsbD 9 = st.aerr := by
  simp only [statusWord_eq_append, BitVec.getLsbD_append, BitVec.getLsbD_ofBool]
  simp

/-- STATUS bits 7:4 and all bits from 10 up read 0 (R175). -/
theorem statusWord_reserved (st : Status) {n : Nat} (hn : (4 ≤ n ∧ n ≤ 7) ∨ 10 ≤ n) :
    (statusWord st).getLsbD n = false := by
  simp only [statusWord_eq_append, BitVec.getLsbD_append, BitVec.getLsbD_zero, BitVec.getLsbD_ofBool, Nat.sub_sub]
  split_ifs <;> simp <;> omega

/-- Settles O6: STATUS is its fields side by side; bits 3:0 by `Status.outcome_cases`. -/
theorem readingStatusAnswersItsFields : Obligations.ReadingStatusAnswersItsFields := by
  intro s
  obtain ⟨hbusy, hdone, hvalid, hmismatch, hwerr, haerr⟩ := statusWord_fields s.status
  refine ⟨statusWord s.status, rfl, hbusy, hdone, hvalid, hmismatch, hwerr, haerr,
    fun n => statusWord_reserved s.status, fun hclean hneeds hexclusive => ?_⟩
  rw [statusWord_toNat_mod]
  obtain ⟨hb, hd, hv, hm⟩ | ⟨hb, hd, hv, hm⟩ | ⟨hb, hd, hv, hm⟩ | ⟨hb, hd, hv, hm⟩ :=
    Status.outcome_cases hclean hneeds hexclusive <;> simp [hb, hd, hv, hm]

/-- Settles O7: the reads answer the registers, of which the invariant says the rest. -/
theorem readingThreshAndSumZeroExtends : Obligations.ReadingThreshAndSumZeroExtends := by
  intro s
  refine ⟨rfl, rfl, fun hinv => ?_⟩
  obtain ⟨-, ⟨-, hsum, hthresh⟩, -, -, -, hquotient, -⟩ := hinv
  exact ⟨fun n => getLsbD_eq_false_of_toNat_lt hthresh, fun n => getLsbD_eq_false_of_toNat_lt hsum, hquotient⟩

/-- Settles O8: DATA's word is its four bytes side by side. -/
theorem readingDataPacksBytesZeroToThree : Obligations.ReadingDataPacksBytesZeroToThree :=
  fun s => ⟨dataWord s.data, rfl, dataWord_byte s.data⟩

/-- Settles O9: CHK's two fields, which by the invariant agree exactly under VALID. -/
theorem readingChkShowsBothChecksums : Obligations.ReadingChkShowsBothChecksums := by
  intro s
  obtain ⟨hlow, hmid, hhigh⟩ := twoByteWord_fields s.csum s.data[4]
  rw [← chkWord_eq_append] at hlow hmid hhigh
  refine ⟨chkWord s.csum s.data, rfl, hlow, hmid, hhigh, fun hinv hdone => ?_⟩
  obtain ⟨-, -, -, -, -, -, -, -, -, hvalid⟩ := hinv
  rw [hlow, hmid, hvalid hdone, beq_iff_eq]

/-- A reset assertion and an SRST clear the reading (R230, R231). -/
theorem reading_zero_of_reset {s t : State} {start clrerr : Bool}
    (h : step { t with schedule := .reset :: t.schedule } = .next s ∨ exec (.wrCtrl start true clrerr) t = .next s) :
    s.hum = 0 ∧ s.temp = 0 := by
  obtain h | h := h <;> cases h <;> exact ⟨rfl, rfl⟩

/-- The default build after a valid decode of five bytes 0, each data-low counter 1, and with PT written to 0 since. -/
def State.afterZeroDecode : State :=
  { State.reset with sum := 40, thresh := 1, status := { Status.reset with done := true, valid := true } }

/-- Settles O10: READING's fields; HUM and TEMP are 0 by the invariant or by the reset. -/
theorem readingTheReadingShowsHumAndTemp : Obligations.ReadingTheReadingShowsHumAndTemp := by
  have hinv : State.afterZeroDecode.Inv := by decide
  refine ⟨⟨State.afterZeroDecode, hinv, rfl, rfl⟩, fun s => ?_⟩
  have hzero : s.hum = 0 ∧ s.temp = 0 → readingWord s.temp s.hum = 0 := by
    rintro ⟨hhum, htemp⟩
    rw [hhum, htemp]
    rfl
  obtain ⟨hlow, hmid, hhigh⟩ := twoByteWord_fields s.temp s.hum
  rw [← readingWord_eq_append] at hlow hmid hhigh
  refine ⟨readingWord s.temp s.hum, rfl, hlow, hmid, hhigh, fun hinv hne => ?_, fun t start clrerr hreset => ?_⟩
  · obtain ⟨-, -, -, -, -, -, -, -, hmismatch, -⟩ := hinv
    exact hzero (hmismatch hne)
  · exact hzero (reading_zero_of_reset hreset)

/-! ## PT accesses -/

theorem exec_rdPt_of_ge {i : PtIndex} (h : 82 ≤ i.toNat) (s : State) : exec (.rdPt i) s = .next s.accessError :=
  if_neg (by omega)

theorem exec_wrPt_of_ge {i : PtIndex} (h : 82 ≤ i.toNat) (w : Word) (s : State) :
    exec (.wrPt i w) s = .next s.accessError :=
  if_neg (by omega)

theorem exec_wrPt_of_lt {i : PtIndex} (h : i.toNat < 82) (w : Word) (s : State) :
    exec (.wrPt i w) s = .next ((s.storeCounter i.toNat w).respond .okay 0) :=
  if_pos (by omega)

/-- A PT write of a counter that exists while IDLE (R166). -/
theorem exec_wrPt_of_idle {i : PtIndex} (h : i.toNat < 82) (w : Word) {s : State} (hidle : s.status.busy = false) :
    exec (.wrPt i w) s = .next ((s.setPt i.toNat (ptValue s.params w)).respond .okay 0) := by
  rw [exec_wrPt_of_lt h, State.storeCounter_of_idle _ _ s hidle]

/-- A PT write of a counter that exists while BUSY (R166, R203). -/
theorem exec_wrPt_of_busy {i : PtIndex} (h : i.toNat < 82) (w : Word) {s : State} (hbusy : s.status.busy = true) :
    exec (.wrPt i w) s = .next ((s.mapStatus Status.writeRefused).respond .okay 0) := by
  rw [exec_wrPt_of_lt h, State.storeCounter_of_busy _ _ s hbusy]

/-- Settles O12: a mapped read up to index 81, an access error above. -/
theorem readingPtAnswersTheCounter : Obligations.ReadingPtAnswersTheCounter := by
  refine fun s i => ⟨fun h => ?_, fun h => exec_rdPt_of_ge h s⟩
  have hcounter : s.readWord (.rdPt i) = s.pt[i.toNat] := by simp [State.readWord, h]
  rw [exec_mappedRead (.inr ⟨i, by omega, rfl⟩), hcounter]
  rfl

/-- A write of PT[0] or PT[1] keeps the data counters (R22). -/
theorem sameDataCounters_set {pt : PulseTrain} {i : Nat} (h : i < 82) (h2 : i < 2) (w : Word) :
    SameDataCounters (pt.set i w h) pt := by
  intro k hk
  exact Vector.getElem_set_ne h k.isLt (by omega)

/-- The same data counters encode the same bytes. -/
theorem SameDataCounters.pulsesEncode_iff {s s' : State} (h : SameDataCounters s.pt s'.pt) (hp : s.params = s'.params)
    (b : DataBytes) : s.PulsesEncode b ↔ s'.PulsesEncode b := by
  refine forall_congr' fun j => forall_congr' fun m => ?_
  rw [hp, h.dataLowSum, h.counter (by omega) (by omega)]

theorem vector_setIfInBounds_eq_set {α : Type} {n : Nat} (v : Vector α n) {i : Nat} (h : i < n) (x : α) :
    v.setIfInBounds i x = v.set i x h := by
  ext k hk
  rw [Vector.getElem_setIfInBounds, Vector.getElem_set]

/-- Settles O14: one equation for each of IDLE, BUSY and an index above 81; PT[0] and PT[1] are no data counters. -/
theorem writingPtStoresWhileIdleOnly : Obligations.WritingPtStoresWhileIdleOnly := by
  refine fun s i w => ⟨fun h hidle => ?_, fun h hbusy => exec_wrPt_of_busy h w hbusy, fun h => exec_wrPt_of_ge h w s,
    fun h h2 => ?_⟩
  · rw [exec_wrPt_of_idle h w hidle, ptValue_eq_ofNat, State.setPt, vector_setIfInBounds_eq_set _ h]
    rfl
  · have hsame : SameDataCounters { s with pt := s.pt.set i.toNat w h }.pt s.pt := sameDataCounters_set h h2 w
    exact ⟨hsame.dataLowSum, hsame.pulsesEncode_iff rfl⟩

/-! ## CTRL writes -/

/-- A CTRL write without SRST changes STATUS alone and is answered OKAY. -/
theorem exec_wrCtrl_without_srst (start clrerr : Bool) (s : State) :
    exec (.wrCtrl start false clrerr) s =
      .next ((s.mapStatus (Status.afterCommands start clrerr)).respond .okay 0) := by
  rw [exec, execWrCtrl, State.ctrlCommands_without_srst]

/-- An accepted START (R164). -/
theorem exec_start_of_idle {s : State} (h : s.status.busy = false) :
    exec (.wrCtrl true false false) s = .next ((s.mapStatus Status.started).respond .okay 0) := by
  rw [← State.startDecode_of_idle s h]
  rfl

/-- A refused START (R164). -/
theorem exec_start_of_busy {s : State} (h : s.status.busy = true) :
    exec (.wrCtrl true false false) s = .next ((s.mapStatus Status.writeRefused).respond .okay 0) := by
  rw [← State.startDecode_of_busy s h]
  rfl

/-- Settles O15: one equation for IDLE and one for BUSY. -/
theorem startIsAcceptedWhileIdleOnly : Obligations.StartIsAcceptedWhileIdleOnly :=
  fun _ => ⟨exec_start_of_idle, exec_start_of_busy⟩

/-- Settles O16: CLRERR without START is its one STATUS update. -/
theorem clearErrorsClearsTheTwoStickyBits : Obligations.ClearErrorsClearsTheTwoStickyBits := fun _ => rfl

/-- Settles O17: `decode_ctrlWrite` for the bits, `Status.afterCommands` for the flags. -/
theorem controlWriteAppliesItsCommandsInOrder : Obligations.ControlWriteAppliesItsCommandsInOrder :=
  ⟨decode_ctrlWrite, fun start clrerr s => ⟨exec_wrCtrl_without_srst start clrerr s, rfl⟩⟩

/-! ## Illegal requests and the selected row -/

/-- Settles O18: every illegal request is the access error. -/
theorem busErrorSetsAerrAndNothingElse : Obligations.BusErrorSetsAerrAndNothingElse := fun _ _ => rfl

/-- The headers that write a read-only register are illegal (R73, R169). -/
theorem readOnlyWrite_illegal {h : Header}
    (hmem : h ∈ [(0xA004 : Header), 0xA008, 0xA00C, 0xA010, 0xA014, 0xA018, 0xA01C]) : h.legal = false := by
  simp only [List.mem_cons, List.not_mem_nil, or_false] at hmem
  obtain rfl | rfl | rfl | rfl | rfl | rfl | rfl := hmem <;> rfl

/-- Settles O20: an illegal header decodes to BUS_ERROR. -/
theorem writingAReadOnlyRegisterIsABusError : Obligations.WritingAReadOnlyRegisterIsABusError := by
  intro s h w hmem
  have hdecode : decode ⟨h, w⟩ = .busError ⟨h, w⟩ := (decode_isBusError_iff _).mpr (readOnlyWrite_illegal hmem)
  exact ⟨hdecode, by rw [hdecode]; rfl⟩

/-- Settles O26: every condition of the decoder is about the header; with the mnemonic taken row by row, the operands, and
WDATA with them, are gone. -/
theorem decodingIgnoresWdata : Obligations.DecodingIgnoresWdata := by
  intro h w w'
  simp only [decode_eq_byNumber, apply_ite Instr.mnemonic]
  simp only [Instr.mnemonic]

/-! ## The engine's rows -/

/-- Settles O39: each of the four rows acts while BUSY alone. -/
theorem theEngineDoesNothingWhileIdle : Obligations.TheEngineDoesNothingWhileIdle := by
  intro s hidle i hi
  have hnothing (f : State → State) : s.whileBusy f = s := State.whileBusy_of_idle f s hidle
  cases i with
  | engThreshold | engClassify | engValidate | engComplete => exact congrArg Host.Outcome.next (hnothing _)
  | _ => cases hi

/-- Settles O37: SUM and THRESH fit in their registers; the rest has one equation for each outcome. -/
theorem completionWritesEveryResultAtOnce : Obligations.CompletionWritesEveryResultAtOnce := by
  intro s hbusy hlegal hwidths
  have hsum : s.completeDecode.sum.toNat = lowSum s.pt := s.thresholdStage_sum_toNat hlegal hwidths
  have hthresh : s.completeDecode.thresh.toNat = quotient s.params (lowSum s.pt) :=
    s.thresholdStage_thresh_toNat hlegal hwidths
  refine ⟨s.completeDecode, exec_engComplete_of_busy hbusy, rfl, ?_, ?_, ?_, ?_, s.classifyStage_encodes,
    checksum_toNat _, fun heq => ?_, fun hne => ?_⟩
  · rw [hsum, s.lowSum_eq_dataLowSum]
  · rw [hthresh, s.lowSum_eq_dataLowSum, quotient]
  · exact hsum ▸ s.lowSum_lt hwidths
  · exact hthresh ▸ s.quotient_lt hwidths
  · rw [State.completeDecode_of_checksum_eq s.classifyStage_encodes heq]
    exact ⟨rfl, rfl, rfl, rfl⟩
  · rw [State.completeDecode_of_checksum_ne s.classifyStage_encodes hne]
    exact ⟨rfl, rfl, rfl, rfl⟩

/-! ## The turns of a step -/

/-- An engine turn is the completion (R171, R172). -/
theorem step_of_engine {s : State} {rest : List Turn} (hs : s.schedule = .engine :: rest) :
    step s = exec .engComplete { s with schedule := rest } := by
  rw [step, hs]

/-- With no turn left the pending completion still comes (R173). -/
theorem step_of_no_turn {s : State} (hs : s.schedule = []) : step s = exec .engComplete s := by
  rw [step, hs]

/-- Settles O50: a request always decodes to a row of the table. -/
theorem stepRunsTheDecodedRequest : Obligations.StepRunsTheDecodedRequest :=
  fun _ r _ hs => ⟨decode_wellFormed r, step_of_request hs⟩

/-- Settles O51: an IDLE block holds its state, as its engine does nothing. -/
theorem stepRunsTheCompletion : Obligations.StepRunsTheCompletion := by
  refine fun s => ⟨fun rest => step_of_engine, step_of_no_turn, fun hs hidle => ?_⟩
  rw [step_of_no_turn hs]
  exact theEngineDoesNothingWhileIdle s hidle .engComplete rfl

/-- A reset assertion is one step (R230). -/
theorem step_of_reset {s : State} {rest : List Turn} (hs : s.schedule = .reset :: rest) :
    step s = .next (State.resetRegisters { s with schedule := rest }) := by
  rw [step, hs]

/-- A step answers a next state with its turn taken off the schedule. -/
theorem step_takes_turn (s : State) : ∃ t : State, step s = .next t ∧ t.schedule = s.schedule.tail := by
  cases hs : s.schedule with
  | nil => exact ⟨_, step_of_no_turn hs, by simp [hs]⟩
  | cons turn rest =>
    cases turn with
    | request r =>
      obtain ⟨t, ht⟩ := exec_answers (decode r) { s with schedule := rest }
      obtain ⟨-, hschedule, -⟩ := exec_request_response ht
      exact ⟨t, (step_of_request hs).trans ht, hschedule⟩
    | engine => exact ⟨_, step_of_engine hs, by simp⟩
    | reset => exact ⟨_, step_of_reset hs, rfl⟩

/-- As many steps as the schedule has turns leave it empty. -/
theorem runSteps_schedule_length (s : State) :
    ∃ t : State, runSteps s.schedule.length s = .next t ∧ t.schedule = [] := by
  induction hs : s.schedule generalizing s with
  | nil => exact ⟨s, rfl, hs⟩
  | cons turn rest ih =>
    obtain ⟨t, ht, hschedule⟩ := step_takes_turn s
    obtain ⟨u, hu, hempty⟩ := ih t (by rw [hschedule, hs, List.tail_cons])
    exact ⟨u, (runSteps_succ _ s t ht).trans hu, hempty⟩

theorem State.whileBusy_completeDecode_idle (s : State) : (s.whileBusy State.completeDecode).status.busy = false := by
  cases hb : s.status.busy with
  | false => rwa [State.whileBusy_of_idle _ s hb]
  | true =>
    rw [State.whileBusy_of_busy _ s hb]
    rfl

/-- Settles O54: the turns empty the schedule, and the step after them is the completion. -/
theorem blockIsIdleOnceTheScheduleHasRun : Obligations.BlockIsIdleOnceTheScheduleHasRun := by
  intro s
  obtain ⟨t, hrun, hempty⟩ := runSteps_schedule_length s
  refine ⟨t.whileBusy State.completeDecode, ?_, by simp [hempty], t.whileBusy_completeDecode_idle⟩
  rw [runSteps_add _ 1 s t hrun, runSteps, step_of_no_turn hempty]
  rfl

/-! ## Runs of the host's requests -/

theorem decode_start : decode .start = .wrCtrl true false false := by decide

theorem ptIndex_toNat {i : Nat} (hi : i < 82) : (BitVec.ofNat 7 i).toNat = i :=
  Nat.mod_eq_of_lt (by omega)

/-- `wrpt`'s header is that of the PT window with WE = 1 (R52, R78). -/
theorem decode_wrpt {i : Nat} (hi : i < 82) (w : Word) : decode (.wrpt i w) = .wrPt (BitVec.ofNat 7 i) w := by
  have hindex : (BitVec.ofNat 7 i).toNat = i := ptIndex_toNat hi
  have hheader : (Request.wrpt i w).header =
      BitVec.ofBool true ++ 0#1 ++ 0b10#2 ++ 0b010#3 ++ BitVec.ofNat 7 i ++ 0b00#2 := by
    apply BitVec.eq_of_toNat_eq
    rw [ptWindowHeader_toNat, hindex, show (Request.wrpt i w).header = 0xA#4 ++ addrPt i from rfl, toNat_append_eq_add,
      addrPt, BitVec.toNat_ofNat, BitVec.toNat_ofNat, Bool.toNat_true]
    omega
  exact (pulseTrainWindowDecodesByIndex (.wrpt i w) true _ hheader).1 (by omega)

theorem decode_wrpt_index {i : PtIndex} (hi : i.toNat < 82) (w : Word) : decode (.wrpt i.toNat w) = .wrPt i w := by
  rw [decode_wrpt hi, BitVec.ofNat_toNat, BitVec.setWidth_eq]

/-- A run whose next turn is a request. -/
theorem runSteps_request {k : Nat} {s t : State} {r : Request} {i : Instr} {rest : List Turn}
    (hs : s.schedule = .request r :: rest) (hd : decode r = i) (ht : exec i { s with schedule := rest } = .next t) :
    runSteps (k + 1) s = runSteps k t :=
  runSteps_succ k s t ((step_of_request hs).trans (hd ▸ ht))

/-- A run whose next turn is the engine's, while BUSY. -/
theorem runSteps_completion {k : Nat} {s : State} {rest : List Turn} (hs : s.schedule = .engine :: rest)
    (hbusy : s.status.busy = true) :
    runSteps (k + 1) s = runSteps k (State.completeDecode { s with schedule := rest }) :=
  runSteps_succ k s _ ((step_of_engine hs).trans (exec_engComplete_of_busy hbusy))

/-- The block after an accepted START and its completion (R164, R172). -/
def State.decoded (s : State) : State := (s.mapStatus Status.started).completeDecode

/-- STATUS, the turns to come and the responses given are no operands of a completion (R172). -/
theorem State.completeDecode_eq_decoded (s : State) (st : Status) (q : List Turn) (rs : List Response) :
    State.completeDecode { s with status := st, schedule := q, responses := rs } =
      { s.decoded with
        status := (st.validated s.decoded.status.valid).finished, schedule := q, responses := rs } := rfl

/-- START, a PT write refused while BUSY, the completion. -/
theorem runSteps_start_write_complete {s : State} {i : PtIndex} (hi : i.toNat < 82) (w : Word)
    (hidle : s.status.busy = false) :
    runSteps 3 { s with schedule := [.request .start, .request (.wrpt i.toNat w), .engine] } =
      .next { s.decoded with
        status := s.decoded.status.writeRefused, schedule := []
        responses := ⟨.okay, 0⟩ :: ⟨.okay, 0⟩ :: s.responses } :=
  calc runSteps 3 { s with schedule := [.request .start, .request (.wrpt i.toNat w), .engine] }
    _ = runSteps 2 { s with
          status := s.status.started, schedule := [.request (.wrpt i.toNat w), .engine]
          responses := ⟨.okay, 0⟩ :: s.responses } :=
      runSteps_request rfl decode_start (exec_start_of_idle hidle)
    _ = runSteps 1 { s with
          status := s.status.started.writeRefused, schedule := [.engine]
          responses := ⟨.okay, 0⟩ :: ⟨.okay, 0⟩ :: s.responses } :=
      runSteps_request rfl (decode_wrpt_index hi w) (exec_wrPt_of_busy hi w rfl)
    _ = _ := (runSteps_completion rfl rfl).trans (congrArg _ (s.completeDecode_eq_decoded ..))

/-- START, the completion, a PT write stored while IDLE. -/
theorem runSteps_start_complete_write {s : State} {i : PtIndex} (hi : i.toNat < 82) (w : Word)
    (hidle : s.status.busy = false) :
    runSteps 3 { s with schedule := [.request .start, .engine, .request (.wrpt i.toNat w)] } =
      .next { s.decoded with
        pt := s.pt.setIfInBounds i.toNat (ptValue s.params w), schedule := []
        responses := ⟨.okay, 0⟩ :: ⟨.okay, 0⟩ :: s.responses } :=
  calc runSteps 3 { s with schedule := [.request .start, .engine, .request (.wrpt i.toNat w)] }
    _ = runSteps 2 { s with
          status := s.status.started, schedule := [.engine, .request (.wrpt i.toNat w)]
          responses := ⟨.okay, 0⟩ :: s.responses } :=
      runSteps_request rfl decode_start (exec_start_of_idle hidle)
    _ = runSteps 1 { s.decoded with
          schedule := [.request (.wrpt i.toNat w)], responses := ⟨.okay, 0⟩ :: s.responses } :=
      (runSteps_completion rfl rfl).trans (congrArg _ (s.completeDecode_eq_decoded ..))
    _ = _ := runSteps_request rfl (decode_wrpt_index hi w) (exec_wrPt_of_idle hi w rfl)

/-- Settles O55: one run for each order, both with the registers of `State.decoded`. -/
theorem bothOrdersOfWriteAndCompletionAreAdmitted : Obligations.BothOrdersOfWriteAndCompletionAreAdmitted := by
  intro s i w hi hidle hwerr
  refine ⟨_, _, runSteps_start_write_complete hi w hidle, runSteps_start_complete_write hi w hidle, rfl, rfl, rfl, ?_,
    hwerr, rfl, ⟨rfl, rfl, rfl, rfl, rfl, rfl⟩, rfl, rfl⟩
  rw [vector_setIfInBounds_eq_set _ hi, ptValue_eq_ofNat]

/-! ## The host's decode procedure -/

/-- PT after the counters `cs` are stored from entry `first` on (R182 (2)). -/
def storeCounters (p : Params) (first : Nat) : List Word → PulseTrain → PulseTrain
  | [], pt => pt
  | c :: cs, pt => storeCounters p (first + 1) cs (pt.setIfInBounds first (ptValue p c))

/-- An entry holds its counter when there is one for it, and is kept otherwise. -/
theorem storeCounters_getElem (p : Params) (cs : List Word) (first : Nat) (pt : PulseTrain) {k : Nat} (hk : k < 82) :
    (storeCounters p first cs pt)[k] = if first ≤ k then (cs[k - first]?.map (ptValue p)).getD pt[k] else pt[k] := by
  induction cs generalizing first pt with
  | nil => simp [storeCounters]
  | cons c cs ih =>
    rw [storeCounters, ih]
    rcases lt_trichotomy k first with hlt | rfl | hgt
    · have h1 : ¬first + 1 ≤ k := by omega
      have h2 : ¬first ≤ k := by omega
      simp [h1, h2, hlt.ne']
    · simp
    · obtain ⟨d, rfl⟩ := Nat.exists_eq_add_of_lt hgt
      have h1 : first + (d + 1) - (first + 1) = d := by omega
      simp [Nat.add_assoc, h1]

/-- Storing a whole capture from entry 0 on replaces PT. -/
theorem storeCounters_capture (p : Params) (capture pt : PulseTrain) :
    storeCounters p 0 capture.toList pt = capture.map (ptValue p) := by
  ext k hk
  rw [storeCounters_getElem p _ 0 pt hk]
  simp [hk]

/-- The requests that write counters, from an IDLE block: each is stored and answered OKAY (R166). -/
theorem runSteps_writeCounters {s : State} {cs : List Word} {first : Nat} {rest : List Turn}
    (hidle : s.status.busy = false) (hfits : first + cs.length ≤ 82)
    (hs : s.schedule = writeCounters first cs ++ rest) :
    runSteps cs.length s = .next { s with
      pt := storeCounters s.params first cs s.pt
      schedule := rest
      responses := List.replicate cs.length ⟨.okay, 0⟩ ++ s.responses } := by
  induction cs generalizing s first with
  | nil =>
    obtain rfl : s.schedule = rest := hs
    rfl
  | cons c cs ih =>
    rw [List.length_cons] at hfits
    have hfirst : first < 82 := by omega
    have hindex : (BitVec.ofNat 7 first).toNat = first := ptIndex_toNat hfirst
    have hstore := exec_wrPt_of_idle (s := { s with schedule := writeCounters (first + 1) cs ++ rest })
      (hindex.symm ▸ hfirst) c hidle
    rw [List.length_cons, runSteps_request hs (decode_wrpt hfirst c) hstore, hindex, List.replicate_succ',
      List.append_assoc]
    exact ih hidle (by omega) rfl

/-- The block once `pt` is loaded counter by counter, with one OKAY for each (R182 (2)). -/
def State.loaded (pt : PulseTrain) (s : State) : State :=
  { s with pt := pt, schedule := [], responses := List.replicate 82 ⟨.okay, 0⟩ ++ s.responses }

@[simp] theorem State.loaded_status (pt : PulseTrain) (s : State) : (s.loaded pt).status = s.status := rfl

/-- The 82 writes of a capture from an IDLE block store the low CNT_W bits of each counter. -/
theorem runSteps_writeCapture {s : State} (hidle : s.status.busy = false) (capture : PulseTrain) (rest : List Turn) :
    runSteps 82 { s with schedule := writeCounters 0 capture.toList ++ rest } =
      .next { s.loaded (capture.map (ptValue s.params)) with schedule := rest } := by
  have hlength : capture.toList.length = 82 := Vector.length_toList
  have hrun := runSteps_writeCounters (s := { s with schedule := writeCounters 0 capture.toList ++ rest })
    hidle (by omega) rfl
  rwa [hlength, storeCounters_capture] at hrun

/-- Settles O56: `runSteps_writeCapture` with no turn after the writes. -/
theorem loadingACaptureStoresEveryCounter : Obligations.LoadingACaptureStoresEveryCounter := by
  intro s capture hidle
  have hrun := runSteps_writeCapture hidle capture []
  rw [List.append_nil, funext (ptValue_eq_ofNat s.params)] at hrun
  exact ⟨_, hrun, rfl⟩

/-- A capture whose counters fit in CNT_W bits is stored as it is (R235). -/
theorem capture_map_ptValue {p : Params} {capture : PulseTrain} (h : ∀ i : Fin 82, capture[i].toNat < 2 ^ p.cntW) :
    capture.map (ptValue p) = capture := by
  apply Vector.ext
  intro k hk
  have hfits : capture[k].toNat < 2 ^ p.cntW := h ⟨k, hk⟩
  rw [Vector.getElem_map]
  apply BitVec.eq_of_toNat_eq
  rw [ptValue_toNat, Nat.mod_eq_of_lt hfits]

/-- The turns of `decodeProcedure` after the counters (R182 (3) to (5)). -/
def decodeTurns : List Turn := [.request .start, .engine, .request .poll, .request (.rd addrReading)]

theorem decode_poll : decode .poll = .rdStatus := by decide

theorem decode_rd_reading : decode (.rd addrReading) = .rdReading := by decide

/-- From an IDLE block the procedure's last turns answer START, STATUS and READING and leave the completed decode. -/
theorem runSteps_decodeTurns {s : State} (hidle : s.status.busy = false) :
    runSteps 4 { s with schedule := decodeTurns } = .next { s.decoded with
      schedule := []
      responses := ⟨.okay, readingWord s.decoded.temp s.decoded.hum⟩ :: ⟨.okay, statusWord s.decoded.status⟩ ::
        ⟨.okay, 0⟩ :: s.responses } :=
  calc runSteps 4 { s with schedule := decodeTurns }
    _ = runSteps 3 { s with
          status := s.status.started, schedule := [.engine, .request .poll, .request (.rd addrReading)]
          responses := ⟨.okay, 0⟩ :: s.responses } :=
      runSteps_request rfl decode_start (exec_start_of_idle hidle)
    _ = runSteps 2 { s.decoded with
          schedule := [.request .poll, .request (.rd addrReading)], responses := ⟨.okay, 0⟩ :: s.responses } :=
      (runSteps_completion rfl rfl).trans (congrArg _ (s.completeDecode_eq_decoded ..))
    _ = runSteps 1 { s.decoded with
          schedule := [.request (.rd addrReading)]
          responses := ⟨.okay, statusWord s.decoded.status⟩ :: ⟨.okay, 0⟩ :: s.responses } :=
      runSteps_request rfl decode_poll rfl
    _ = _ := runSteps_request rfl decode_rd_reading rfl

/-- The whole procedure from an IDLE block, for a capture whose counters fit (R182, R235). -/
theorem runSteps_decodeProcedure {s : State} {capture : PulseTrain} (hidle : s.status.busy = false)
    (hfits : ∀ i : Fin 82, capture[i].toNat < 2 ^ s.params.cntW) :
    runSteps 86 { s with schedule := decodeProcedure capture } = .next { (s.loaded capture).decoded with
      schedule := []
      responses := ⟨.okay, readingWord (s.loaded capture).decoded.temp (s.loaded capture).decoded.hum⟩ ::
        ⟨.okay, statusWord (s.loaded capture).decoded.status⟩ :: ⟨.okay, 0⟩ :: (s.loaded capture).responses } := by
  have hwrites := runSteps_writeCapture hidle capture decodeTurns
  rw [capture_map_ptValue hfits] at hwrites
  exact (runSteps_add 82 4 _ _ hwrites).trans (runSteps_decodeTurns (s := s.loaded capture) hidle)

/-- A right fifth byte: VALID and the reading, with the error bits as they were (R142). -/
theorem State.decoded_of_checksum_eq {s : State} {b : DataBytes} (hpulses : s.PulsesEncode b) (h : checksum b = b[4]) :
    s.decoded.hum = b[0] ∧ s.decoded.temp = b[2] ∧ s.decoded.status =
      { s.status with busy := false, done := true, valid := true, mismatch := false } := by
  rw [State.decoded, State.completeDecode_of_checksum_eq (s := s.mapStatus Status.started) hpulses h]
  exact ⟨rfl, rfl, rfl⟩

/-- A wrong fifth byte: MISMATCH and no reading, with the error bits as they were (R143). -/
theorem State.decoded_of_checksum_ne {s : State} {b : DataBytes} (hpulses : s.PulsesEncode b) (h : checksum b ≠ b[4]) :
    s.decoded.hum = 0 ∧ s.decoded.temp = 0 ∧ s.decoded.status =
      { s.status with busy := false, done := true, valid := false, mismatch := true } := by
  rw [State.decoded, State.completeDecode_of_checksum_ne (s := s.mapStatus Status.started) hpulses h]
  exact ⟨rfl, rfl, rfl⟩

/-- Settles O57: the procedure's run, with the two outcomes of its decode. -/
theorem theDecodeProcedureReportsTheCapture : Obligations.TheDecodeProcedureReportsTheCapture := by
  intro s capture hidle hwerr haerr hfits
  have hpulses := (s.loaded capture).classifyStage_encodes
  refine ⟨_, (s.loaded capture).classifyStage.data, runSteps_decodeProcedure hidle hfits, rfl, hpulses, rfl,
    fun hright => ?_, fun hwrong => ?_⟩
  · have hsum := (checksum_eq_iff_toNat _).mpr hright.symm
    obtain ⟨hhum, htemp, hstatus⟩ := State.decoded_of_checksum_eq hpulses hsum
    simp only [State.loaded_status, hwerr, haerr] at hstatus
    simp only [State.outcome, hstatus, hhum, htemp]
    exact ⟨rfl, _, rfl⟩
  · have hsum := mt (checksum_eq_iff_toNat _).mp hwrong.symm
    obtain ⟨hhum, htemp, hstatus⟩ := State.decoded_of_checksum_ne hpulses hsum
    simp only [State.loaded_status, hwerr, haerr] at hstatus
    simp only [State.outcome, hstatus, hhum, htemp]
    exact ⟨rfl, _, rfl⟩

end Sys2Proof.Machine
end

section
/-! PROOFS. The statements of 60_exceptions.md: which requests are answered ERR (O19), what sets WERR (O21), what clears
WERR and AERR (O22), and that nothing stops the block (O53). -/

namespace Sys2Proof.Machine

open Sys2Proof

/-! ## WERR and AERR after each operation (R29) -/

@[simp] theorem State.ctrlCommands_werr (start srst clrerr : Bool) (s : State) :
    (s.ctrlCommands start srst clrerr).status.werr =
      (!srst && (s.status.werr && !clrerr || start && s.status.busy)) := by
  cases srst with
  | true => rfl
  | false => rw [State.ctrlCommands_without_srst]; rfl

@[simp] theorem State.ctrlCommands_aerr (start srst clrerr : Bool) (s : State) :
    (s.ctrlCommands start srst clrerr).status.aerr = (!srst && (s.status.aerr && !clrerr)) := by
  cases srst with
  | true => rfl
  | false => rw [State.ctrlCommands_without_srst]; rfl

@[simp] theorem State.storeCounter_werr (i : Nat) (w : Word) (s : State) :
    (s.storeCounter i w).status.werr = (s.status.werr || s.status.busy) := by
  cases hb : s.status.busy with
  | false => simp [State.storeCounter_of_idle i w s hb]
  | true => simp [State.storeCounter_of_busy i w s hb]

@[simp] theorem State.storeCounter_aerr (i : Nat) (w : Word) (s : State) :
    (s.storeCounter i w).status.aerr = s.status.aerr := by
  cases hb : s.status.busy with
  | false => simp [State.storeCounter_of_idle i w s hb]
  | true => simp [State.storeCounter_of_busy i w s hb]

@[simp] theorem State.whileBusy_completeDecode_werr (s : State) :
    (s.whileBusy State.completeDecode).status.werr = s.status.werr := by
  unfold State.whileBusy; split <;> rfl

@[simp] theorem State.whileBusy_completeDecode_aerr (s : State) :
    (s.whileBusy State.completeDecode).status.aerr = s.status.aerr := by
  unfold State.whileBusy; split <;> rfl

/-! ## Which requests are answered ERR -/

/-- The illegal requests, by the header's fields and the reserved address ranges of R51 (R74, R202). -/
def IllegalHeader (h : Header) : Prop :=
  let a := (h.extractLsb' 0 12).toNat
  h.getLsbD 14 = true ∨ h.extractLsb' 12 2 ≠ 0b10 ∨ a % 4 ≠ 0 ∨
    (0x020 ≤ a ∧ a ≤ 0x3FC) ∨ (0x548 ≤ a ∧ a ≤ 0x5FC) ∨ 0x600 ≤ a ∨
    (h.getLsbD 15 = true ∧ 0x004 ≤ a ∧ a ≤ 0x01C)

/-- An address is unmapped when it is unaligned or in one of the three reserved ranges (R51, R53, R56). -/
theorem mapped_eq_false_iff (a : Addr) : a.mapped = false ↔
    a.toNat % 4 ≠ 0 ∨ (0x020 ≤ a.toNat ∧ a.toNat ≤ 0x3FC) ∨ (0x548 ≤ a.toNat ∧ a.toNat ≤ 0x5FC) ∨
      0x600 ≤ a.toNat := by
  simp only [Addr.mapped, Addr.aligned, Addr.inPulseTrain, Bool.and_eq_false_iff, Bool.or_eq_false_iff,
    beq_eq_false_iff_ne, decide_eq_false_iff_not]
  omega

/-- The mapped addresses a write may not name are the read-only registers (R73, R169). -/
theorem writable_eq_false_iff {a : Addr} (ha : a.mapped = true) :
    a.writable = false ↔ 0x004 ≤ a.toNat ∧ a.toNat ≤ 0x01C := by
  simp only [Addr.mapped, Addr.aligned, Addr.inPulseTrain, Bool.and_eq_true, Bool.or_eq_true, beq_iff_eq,
    decide_eq_true_eq] at ha
  simp only [Addr.writable, Addr.inPulseTrain, Bool.or_eq_false_iff, Bool.and_eq_false_iff, beq_eq_false_iff_ne,
    decide_eq_false_iff_not]
  omega

/-- The decoder's legality (R73) is the absence of R74's causes. -/
theorem legal_eq_false_iff (h : Header) : h.legal = false ↔ IllegalHeader h := calc
  h.legal = false ↔ h.rsv = true ∨ h.size ≠ 0b10 ∨ h.addr.mapped = false ∨
      (h.we = true ∧ h.addr.writable = false) := by
    simp only [Header.legal, Bool.and_eq_false_iff, Bool.or_eq_false_iff, Bool.not_eq_false', beq_eq_false_iff_ne,
      or_assoc]
  _ ↔ h.rsv = true ∨ h.size ≠ 0b10 ∨ h.addr.mapped = false ∨
      (h.we = true ∧ 0x004 ≤ h.addr.toNat ∧ h.addr.toNat ≤ 0x01C) :=
    or_congr_right <| or_congr_right <| or_congr_right' fun hmapped => and_congr_right fun _ =>
      writable_eq_false_iff (Bool.not_eq_false _ ▸ hmapped)
  _ ↔ IllegalHeader h := by
    simp only [mapped_eq_false_iff, or_assoc]
    rfl

/-- A legal request is answered OKAY and sets no AERR (R202). -/
theorem exec_legalRequest {r : Request} {s t : State} (ht : exec (decode r) s = .next t)
    (hlegal : r.header.legal = true) :
    (∃ w : Word, t.responses = ⟨.okay, w⟩ :: s.responses) ∧ (t.status.aerr = true → s.status.aerr = true) := by
  obtain ⟨-, -, w, rfl⟩ | ⟨start, srst, clrerr, -, rfl⟩ | ⟨i, w, -, -, rfl⟩ | ⟨hillegal, -, -⟩ :=
    exec_request_inversion r s t ht
  · exact ⟨⟨w, rfl⟩, id⟩
  · refine ⟨⟨0, by simp⟩, fun haerr => ?_⟩
    simp only [State.respond_status, State.ctrlCommands_aerr, Bool.and_eq_true] at haerr
    obtain ⟨-, haerr, -⟩ := haerr
    exact haerr
  · exact ⟨⟨0, by simp⟩, by simp⟩
  · exact absurd (hillegal.symm.trans hlegal) Bool.false_ne_true

/-- Settles O19: an illegal header decodes to BUS_ERROR; what any other request does is `exec_legalRequest`. -/
theorem requestsErrExactlyWhenIllegal : Obligations.RequestsErrExactlyWhenIllegal := by
  intro s r
  have hillegal : r.header.legal = false ↔ IllegalHeader r.header := legal_eq_false_iff r.header
  refine ⟨fun h => ?_, fun h => ?_⟩
  · rw [(decode_isBusError_iff r).mpr (hillegal.mpr h)]
    rfl
  · obtain ⟨t, ht⟩ := exec_answers (decode r) s
    have hlegal : r.header.legal = true := Bool.not_eq_false _ ▸ mt hillegal.mp h
    obtain ⟨⟨w, hw⟩, haerr⟩ := exec_legalRequest ht hlegal
    exact ⟨t, w, ht, hw, haerr⟩

/-! ## What sets WERR -/

/-- The instructions that are refused while BUSY: a PT write, and a CTRL write with START and without SRST (R203). -/
def NeedsIdle (i : Instr) : Prop :=
  (∃ (n : PtIndex) (w : Word), i = .wrPt n w) ∨ ∃ clrerr : Bool, i = .wrCtrl true false clrerr

/-- A request with WE = 0 decodes to no write (R70, R73). -/
theorem not_needsIdle_of_read {r : Request} (hread : r.header.getLsbD 15 = false) : ¬NeedsIdle (decode r) := by
  have hnum : ¬0x8000 ≤ r.header.toNat := by rw [← writeBit_iff_byNumber, hread]; exact Bool.false_ne_true
  obtain ⟨w₀, henc, -⟩ := encode_decode r
  rintro (⟨n, w, hd⟩ | ⟨clrerr, hd⟩) <;> rw [hd] at henc
  · have hheader : ptHeader rowWrPt n = r.header := congrArg Request.header (Option.some.inj henc)
    have hwrite : (ptHeader rowWrPt n).toNat = 0x8000 * 1 + 0x2400 + 4 * n.toNat := ptRowHeader_toNat true n
    rw [hheader] at hwrite
    omega
  · have hheader : (0xA000 : Header) = r.header := congrArg Request.header (Option.some.inj henc)
    exact hnum (hheader ▸ by decide)

/-- With WERR = 0 a request sets it exactly when it needs an IDLE engine and finds it BUSY (R203). -/
theorem exec_request_sets_werr_iff {r : Request} {s t : State} (ht : exec (decode r) s = .next t)
    (hwerr : s.status.werr = false) :
    t.status.werr = true ↔ s.status.busy = true ∧ NeedsIdle (decode r) := by
  obtain ⟨hread, -, w, rfl⟩ | ⟨start, srst, clrerr, hd, rfl⟩ | ⟨i, w, hd, -, rfl⟩ | ⟨-, hd, rfl⟩ :=
    exec_request_inversion r s t ht
  · simp [hwerr, not_needsIdle_of_read hread]
  · have hneeds : NeedsIdle (decode r) ↔ start = true ∧ srst = false := by simp [NeedsIdle, hd]
    simp [hwerr, hneeds, and_assoc, and_comm, and_left_comm]
  · have hneeds : NeedsIdle (decode r) := .inl ⟨i, w, hd⟩
    simp [hwerr, hneeds]
  · have hneeds : ¬NeedsIdle (decode r) := by simp [NeedsIdle, hd]
    simp [hwerr, hneeds]

/-- The write or START that finds the engine BUSY is dropped and answered OKAY (R203). -/
theorem exec_request_dropped {r : Request} {s t : State} (ht : exec (decode r) s = .next t)
    (hbusy : s.status.busy = true) (hneeds : NeedsIdle (decode r)) :
    t.responses = ⟨.okay, 0⟩ :: s.responses ∧ t.pt = s.pt ∧ s.SameResults t ∧ t.status.busy = true ∧
      t.status.done = s.status.done ∧ t.status.valid = s.status.valid ∧ t.status.mismatch = s.status.mismatch := by
  obtain ⟨n, w, hd⟩ | ⟨clrerr, hd⟩ := hneeds
  · have hwf := decode_wellFormed r
    rw [hd] at ht hwf
    have hn : n.toNat ≤ 81 := of_decide_eq_true hwf
    rw [exec_wrPt_of_busy (by omega) w hbusy] at ht
    cases ht
    exact ⟨rfl, rfl, s.sameResults_refl, hbusy, rfl, rfl, rfl⟩
  · rw [hd, exec_wrCtrl_without_srst] at ht
    cases ht
    exact ⟨rfl, rfl, s.sameResults_refl, by simp [Status.afterCommands, hbusy]⟩

/-- Settles O21: `exec_request_sets_werr_iff`, and what then happens is `exec_request_dropped`. -/
theorem writeWhileBusySetsWerrExactly : Obligations.WriteWhileBusySetsWerrExactly := by
  intro s r hwerr
  obtain ⟨t, ht⟩ := exec_answers (decode r) s
  have hiff := exec_request_sets_werr_iff ht hwerr
  refine ⟨t, ht, hiff, fun hset => ?_⟩
  obtain ⟨hbusy, hneeds⟩ := hiff.mp hset
  exact exec_request_dropped ht hbusy hneeds

/-! ## What clears WERR and AERR -/

/-- Every error bit that is set stays set (R29). -/
def State.KeepsErrors (s t : State) : Prop :=
  (s.status.werr = true → t.status.werr = true) ∧ (s.status.aerr = true → t.status.aerr = true)

/-- A transaction keeps the error bits, unless it is a CTRL write with SRST or CLRERR. -/
theorem exec_request_keepsErrors {r : Request} {s t : State} (ht : exec (decode r) s = .next t) :
    s.KeepsErrors t ∨
      ∃ start srst clrerr : Bool, decode r = .wrCtrl start srst clrerr ∧ (srst = true ∨ clrerr = true) := by
  obtain ⟨-, -, w, rfl⟩ | ⟨start, srst, clrerr, hd, rfl⟩ | ⟨i, w, -, -, rfl⟩ | ⟨-, -, rfl⟩ :=
    exec_request_inversion r s t ht
  · exact .inl ⟨id, id⟩
  · by_cases hcommand : srst = true ∨ clrerr = true
    · exact .inr ⟨start, srst, clrerr, hd, hcommand⟩
    · obtain ⟨rfl, rfl⟩ : srst = false ∧ clrerr = false := by simpa using hcommand
      exact .inl ⟨fun hwerr => by simp [hwerr], fun haerr => by simp [haerr]⟩
  · exact .inl ⟨fun hwerr => by simp [hwerr], fun haerr => by simp [haerr]⟩
  · exact .inl ⟨id, fun _ => rfl⟩

theorem State.keepsErrors_whileBusy_completeDecode (s : State) : s.KeepsErrors (s.whileBusy State.completeDecode) :=
  ⟨fun hwerr => by simp [hwerr], fun haerr => by simp [haerr]⟩

/-- Settles O22: the engine keeps the error bits, and a request is one of `exec_request_keepsErrors`. -/
theorem stickyErrorBitsAreClearedByCommandOnly : Obligations.StickyErrorBitsAreClearedByCommandOnly := by
  intro s t hstep hcleared
  have hnot : ¬s.KeepsErrors t := by
    rintro ⟨hwerr, haerr⟩
    obtain ⟨hset, hclear⟩ | ⟨hset, hclear⟩ := hcleared
    · exact Bool.false_ne_true (hclear.symm.trans (hwerr hset))
    · exact Bool.false_ne_true (hclear.symm.trans (haerr hset))
  obtain ⟨-, rfl⟩ | ⟨r, rest, hs, hexec⟩ | ⟨rest, -, rfl⟩ | ⟨rest, hs, -⟩ := step_inversion s t hstep
  · exact absurd s.keepsErrors_whileBusy_completeDecode hnot
  · obtain hkeeps | ⟨start, srst, clrerr, hd, hcommand⟩ :=
      exec_request_keepsErrors (s := { s with schedule := rest }) hexec
    · exact absurd hkeeps hnot
    · exact .inr ⟨r, rest, start, srst, clrerr, hs, hd, hcommand⟩
  · exact absurd (State.keepsErrors_whileBusy_completeDecode { s with schedule := rest }) hnot
  · exact .inl ⟨rest, hs⟩

/-! ## Nothing stops the block -/

/-- A turn that is no request gives no response (R71, R214). -/
theorem step_responses_of_no_request {s t : State} (hstep : step s = .next t)
    (hnone : ¬∃ (r : Request) (rest : List Turn), s.schedule = .request r :: rest) : t.responses = s.responses := by
  obtain ⟨-, rfl⟩ | ⟨r, rest, hs, -⟩ | ⟨rest, -, rfl⟩ | ⟨rest, -, rfl⟩ := step_inversion s t hstep
  · exact s.whileBusy_completeDecode_responses
  · exact absurd ⟨r, rest, hs⟩ hnone
  · exact State.whileBusy_completeDecode_responses { s with schedule := rest }
  · rfl

/-- Settles O53: `step_takes_turn`, and a response needs a request. -/
theorem everyStepAnswersANextState : Obligations.EveryStepAnswersANextState := by
  intro s
  obtain ⟨t, hstep, hschedule⟩ := step_takes_turn s
  exact ⟨t, hstep, hschedule, step_responses_of_no_request hstep⟩

end Sys2Proof.Machine
end

section
/-! PROOFS. The statements of 70_reset_and_hazards.md: decoding again (O43), the hard and the soft reset (O1, O2), what they
leave (O3, O4), and the invariant of the reset state (O44). -/

namespace Sys2Proof.Machine

open Sys2Proof

/-! ## Decoding again -/

/-- A START and a completion after a completion leave nothing new but START's response: the completion reads PT and the
parameters, which it keeps, and writes every flag that START changed (R164, R172). -/
theorem State.completeDecode_started_completeDecode (s : State) :
    ((s.completeDecode.mapStatus Status.started).respond .okay 0).completeDecode = s.completeDecode.respond .okay 0 := rfl

/-- Settles O43: the completion leaves the engine IDLE, so the START is accepted; the second completion adds nothing. -/
theorem decodingAgainGivesTheSameResults : Obligations.DecodingAgainGivesTheSameResults := by
  intro s hbusy
  have hidle : s.completeDecode.status.busy = false := rfl
  have hagain : exec .engComplete ((s.completeDecode.mapStatus Status.started).respond .okay 0) =
      .next (s.completeDecode.respond .okay 0) := by
    rw [exec_engComplete_of_busy rfl, s.completeDecode_started_completeDecode]
  exact ⟨_, _, _, exec_engComplete_of_busy hbusy, exec_start_of_idle hidle, hagain, s.completeDecode.sameResults_refl,
    rfl, rfl⟩

/-! ## The hard and the soft reset -/

/-- Settles O1: a reset assertion is `State.resetRegisters`. -/
theorem hardResetClearsEveryRegister : Obligations.HardResetClearsEveryRegister :=
  fun _ _ hs => step_of_reset hs

/-- An SRST is the reset of the registers, answered OKAY, whatever START and CLRERR are (R231). -/
theorem exec_srst (start clrerr : Bool) (s : State) :
    exec (.wrCtrl start true clrerr) s = .next (s.resetRegisters.respond .okay 0) := by
  rw [exec, execWrCtrl, State.ctrlCommands_with_srst]

/-- Settles O2: both resets are `State.resetRegisters`. -/
theorem softResetIsAHardResetAnsweredOkay : Obligations.SoftResetIsAHardResetAnsweredOkay := by
  intro start clrerr s t hstep
  rw [step_of_reset rfl] at hstep
  cases hstep
  exact exec_srst start clrerr s

/-! ## What a reset leaves -/

/-- A reset assertion and an SRST leave the registers of the build's reset state (R230, R231). -/
theorem sameBlock_resetOf_of_reset {s t : State} {rest : List Turn} {start clrerr : Bool}
    (h : step { s with schedule := .reset :: rest } = .next t ∨ exec (.wrCtrl start true clrerr) s = .next t) :
    (State.resetOf s.params).SameBlock t := by
  obtain hhard | hsoft := h
  · rw [step_of_reset rfl] at hhard
    cases hhard
    exact ⟨rfl, rfl, rfl, rfl, rfl, rfl, rfl, rfl, rfl⟩
  · rw [exec_srst] at hsoft
    cases hsoft
    exact ⟨rfl, rfl, rfl, rfl, rfl, rfl, rfl, rfl, rfl⟩

/-- The word a read answers is a function of the block's registers. -/
theorem State.SameBlock.readWord_eq {s t : State} (h : s.SameBlock t) (i : Instr) : t.readWord i = s.readWord i := by
  obtain ⟨hparams, hpt, hsum, hthresh, hdata, hcsum, hhum, htemp, hstatus⟩ := h
  cases i <;> simp only [State.readWord, hparams, hpt, hsum, hthresh, hdata, hcsum, hhum, htemp, hstatus]

/-- In the reset state every read but CONFIG's answers 0 (R232). -/
theorem State.readWord_resetOf (p : Params) {i : Instr} (hi : i ≠ .rdConfig) : (State.resetOf p).readWord i = 0 := by
  cases i with
  | rdConfig => exact absurd rfl hi
  | rdPt n =>
    rw [State.readWord, State.resetOf_pt, Vector.getElem?_replicate]
    split <;> rfl
  | _ => rfl

/-- After a reset every mapped read but CONFIG's answers 0 and does nothing else. -/
theorem exec_mappedRead_of_reset {p : Params} {t : State} (h : (State.resetOf p).SameBlock t) {i : Instr}
    (hi : IsMappedRead i) (hconfig : i ≠ .rdConfig) : exec i t = .next (t.respond .okay 0) := by
  rw [exec_mappedRead hi, h.readWord_eq, State.readWord_resetOf p hconfig]

/-- Settles O3: the reads of `exec_mappedRead_of_reset`; CONFIG's word is a function of the parameters, which stay. -/
theorem everyRegisterReadsItsResetValue : Obligations.EveryRegisterReadsItsResetValue := by
  intro s t rest start clrerr hreset
  have hblock := sameBlock_resetOf_of_reset hreset
  have hparams : t.params = s.params := hblock.1
  refine ⟨fun i hi => ?_, fun i hi => ?_, configWord s.params, hparams ▸ rfl, rfl, fun hdefault => ?_⟩
  · have hregister : i ∈ [Instr.rdCtrl, .rdStatus, .rdThresh, .rdSum, .rdData, .rdChk, .rdReading, .rdConfig] :=
      List.mem_append_left [Instr.rdConfig] hi
    exact exec_mappedRead_of_reset hblock (.inl hregister) (by rintro rfl; simp at hi)
  · exact exec_mappedRead_of_reset hblock (.inr ⟨i, hi, rfl⟩) nofun
  · rw [hdefault]
    rfl

/-- Settles O4: a reset leaves the engine IDLE, where it does nothing. -/
theorem resetDuringDecodeCancelsTheCompletion : Obligations.ResetDuringDecodeCancelsTheCompletion := by
  intro s t start clrerr _ hreset
  obtain ⟨-, hpt, -, -, -, -, -, -, hstatus⟩ := sameBlock_resetOf_of_reset hreset
  have hidle : t.status.busy = false := congrArg Status.busy hstatus
  have hnotdone : t.status.done = false := congrArg Status.done hstatus
  exact ⟨theEngineDoesNothingWhileIdle t hidle .engComplete rfl, hidle, hnotdone, hpt⟩

/-! ## The invariant of the reset state -/

/-- Settles O44: `State.inv_resetOf` for the default build and for every legal one. -/
theorem resetMeetsTheInvariant : Obligations.ResetMeetsTheInvariant := by
  have hdefault : Params.default.Legal := by decide
  exact ⟨State.inv_resetOf hdefault, fun _ => State.inv_resetOf⟩

end Sys2Proof.Machine
end
